-- ==== Sys2Proof/Word.lean ====
section
/-! DEFINITION. Bytes, words and byte sequences: the value types of the spec (R7 to R9). -/

namespace Sys2Proof

/-- An 8-bit byte, value 0..255 (R7). -/
abbrev Byte := BitVec 8

/-- A 32-bit unsigned word: the width of the operand, result, cursor and length registers (R6, `XLEN`). -/
abbrev Word := BitVec 32

/-- A byte sequence (R9). -/
abbrev Bytes := List Byte

end Sys2Proof
end

