-- ==== Sys2Proof/Config.lean ====
section
/-! DEFINITION. The parameters of rule R6: the two open ones as data, the fixed ones as constants, and the one
value the spec leaves free. -/

namespace Sys2Proof.Config

/-- The values of `BANK_SHIFT` the spec gives meaning to (R6, D1): "default 3, the other meaningful value 5". -/
inductive BankShift where
  | three
  | five
deriving DecidableEq, Repr

/-- The shift as a number. -/
def BankShift.amount : BankShift → Nat
  | .three => 3
  | .five => 5

/-- The two OPEN parameters of R6, constants of one block. They stand in State so that a statement about every
state covers every value; no step writes them (log 3, log 4). -/
structure Params where
  /-- `BANK_SHIFT`, used by SERIALIZE only (R76). -/
  bankShift : BankShift
  /-- `MAX_CHUNKS` (R6, D28); a 32-bit value because `CHN` is a 32-bit register (R29). -/
  maxChunks : Word
deriving DecidableEq, Repr

/-- The defaults of R6: `BANK_SHIFT` = 3, `MAX_CHUNKS` = 2^32 - 1. -/
def Params.default : Params := { bankShift := .three, maxChunks := 0xFFFFFFFF#32 }

/-- What a read of an open value gives: reading `CMD` (U16), or a buffer byte at or above its length register (U9).
A FREE VALUE (log 6): no body, one fresh value per draw. -/
opaque openRead : Nat → Byte

/-- `MAX_PAYLOAD` (R6). -/
@[simp] def maxPayload : Nat := 65535

/-- `PALETTE_BYTES` (R6). -/
@[simp] def paletteBytes : Nat := 48

/-- `SPRITE_BYTES` (R6). -/
@[simp] def spriteBytes : Nat := 32

/-- `ROW_BYTES` (R6). -/
@[simp] def rowBytes : Nat := 4

/-- `MAP_W` (R6). -/
@[simp] def mapWidth : Nat := 240

/-- The greatest number of bytes a buffer space holds (R50): 2^32 - 1, so its greatest address is 2^32 - 2. U6 leaves
open how large an implementation's `IN` is; the model's buffers have the whole of R50's greatest length, so that no
`INLEN` is beyond them (DESIGN CHOICE, log 16). -/
@[simp] def maxSpace : Nat := 4294967295

/-- `LF`, the only line break (R6, R180). -/
def lf : Byte := 0x0A#8

/-- `WS`, the white-space bytes (R6, R180). -/
def whiteSpace : Bytes := [0x09#8, 0x0A#8, 0x0B#8, 0x0C#8, 0x0D#8, 0x20#8]

end Sys2Proof.Config
end

