-- ==== Sys2Proof/Syntax.lean ====
section
/-! DEFINITION. The instructions: one constructor per row of spec/opcode_table.json.
The block has two encodings (30_encoding.md): the chunk frame, fetched from `IN`, and the command, fetched from `CMD`. -/

namespace Sys2Proof

/-- Where an instruction's bytes come from: a frame from the byte stream in `IN` (R75), a command from `CMD` (R86). -/
inductive Port where
  | frame
  | command
deriving DecidableEq, Repr

/-- The fields of one chunk frame (R75, R83). The length field of the frame is the length of `payload` (R79). -/
structure Frame where
  /-- `H[4:0]` -/
  typeId : BitVec 5
  /-- `H[7:5]` -/
  bank : BitVec 3
  /-- `H[31:24]`, the reserved byte (R80) -/
  reserved : Byte
  /-- the `length` bytes after the header -/
  payload : Bytes
deriving DecidableEq, Repr

/-- The 51 instructions: 32 frame decodings (R117 to R124) with the frame's own fields as operands, and 19
commands (R87), whose operands stand in `A[0..5]` and `DIN`. -/
inductive Instr where
  /-- `CHUNK.RSV0`, type id 0 (R124) -/
  | chunkRsv0 (bank : BitVec 3) (reserved : Byte) (payload : Bytes)
  /-- `CHUNK.TILES`, type id 1 (R117) -/
  | chunkTiles (bank : BitVec 3) (reserved : Byte) (payload : Bytes)
  /-- `CHUNK.SPRITES`, type id 2 (R118) -/
  | chunkSprites (bank : BitVec 3) (reserved : Byte) (payload : Bytes)
  /-- `CHUNK.COVER_DEP`, type id 3 (R123) -/
  | chunkCoverDep (bank : BitVec 3) (reserved : Byte) (payload : Bytes)
  /-- `CHUNK.MAP`, type id 4 (R119) -/
  | chunkMap (bank : BitVec 3) (reserved : Byte) (payload : Bytes)
  /-- `CHUNK.CODE`, type id 5 (R120) -/
  | chunkCode (bank : BitVec 3) (reserved : Byte) (payload : Bytes)
  /-- `CHUNK.FLAGS`, type id 6 (R121) -/
  | chunkFlags (bank : BitVec 3) (reserved : Byte) (payload : Bytes)
  /-- `CHUNK.RSV7`, type id 7 (R124) -/
  | chunkRsv7 (bank : BitVec 3) (reserved : Byte) (payload : Bytes)
  /-- `CHUNK.RSV8`, type id 8 (R124) -/
  | chunkRsv8 (bank : BitVec 3) (reserved : Byte) (payload : Bytes)
  /-- `CHUNK.SAMPLES`, type id 9 (R123) -/
  | chunkSamples (bank : BitVec 3) (reserved : Byte) (payload : Bytes)
  /-- `CHUNK.WAVEFORM`, type id 10 (R123) -/
  | chunkWaveform (bank : BitVec 3) (reserved : Byte) (payload : Bytes)
  /-- `CHUNK.RSV11`, type id 11 (R124) -/
  | chunkRsv11 (bank : BitVec 3) (reserved : Byte) (payload : Bytes)
  /-- `CHUNK.PALETTE`, type id 12 (R122) -/
  | chunkPalette (bank : BitVec 3) (reserved : Byte) (payload : Bytes)
  /-- `CHUNK.PATTERNS_DEP`, type id 13 (R123) -/
  | chunkPatternsDep (bank : BitVec 3) (reserved : Byte) (payload : Bytes)
  /-- `CHUNK.MUSIC`, type id 14 (R123) -/
  | chunkMusic (bank : BitVec 3) (reserved : Byte) (payload : Bytes)
  /-- `CHUNK.PATTERNS`, type id 15 (R123) -/
  | chunkPatterns (bank : BitVec 3) (reserved : Byte) (payload : Bytes)
  /-- `CHUNK.ZCODE_DEP`, type id 16 (R123) -/
  | chunkZcodeDep (bank : BitVec 3) (reserved : Byte) (payload : Bytes)
  /-- `CHUNK.DEFAULT`, type id 17 (R123) -/
  | chunkDefault (bank : BitVec 3) (reserved : Byte) (payload : Bytes)
  /-- `CHUNK.SCREEN`, type id 18 (R123) -/
  | chunkScreen (bank : BitVec 3) (reserved : Byte) (payload : Bytes)
  /-- `CHUNK.BINARY`, type id 19 (R123) -/
  | chunkBinary (bank : BitVec 3) (reserved : Byte) (payload : Bytes)
  /-- `CHUNK.RSV20`, type id 20 (R124) -/
  | chunkRsv20 (bank : BitVec 3) (reserved : Byte) (payload : Bytes)
  /-- `CHUNK.RSV21`, type id 21 (R124) -/
  | chunkRsv21 (bank : BitVec 3) (reserved : Byte) (payload : Bytes)
  /-- `CHUNK.RSV22`, type id 22 (R124) -/
  | chunkRsv22 (bank : BitVec 3) (reserved : Byte) (payload : Bytes)
  /-- `CHUNK.RSV23`, type id 23 (R124) -/
  | chunkRsv23 (bank : BitVec 3) (reserved : Byte) (payload : Bytes)
  /-- `CHUNK.RSV24`, type id 24 (R124) -/
  | chunkRsv24 (bank : BitVec 3) (reserved : Byte) (payload : Bytes)
  /-- `CHUNK.RSV25`, type id 25 (R124) -/
  | chunkRsv25 (bank : BitVec 3) (reserved : Byte) (payload : Bytes)
  /-- `CHUNK.RSV26`, type id 26 (R124) -/
  | chunkRsv26 (bank : BitVec 3) (reserved : Byte) (payload : Bytes)
  /-- `CHUNK.RSV27`, type id 27 (R124) -/
  | chunkRsv27 (bank : BitVec 3) (reserved : Byte) (payload : Bytes)
  /-- `CHUNK.RSV28`, type id 28 (R124) -/
  | chunkRsv28 (bank : BitVec 3) (reserved : Byte) (payload : Bytes)
  /-- `CHUNK.RSV29`, type id 29 (R124) -/
  | chunkRsv29 (bank : BitVec 3) (reserved : Byte) (payload : Bytes)
  /-- `CHUNK.RSV30`, type id 30 (R124) -/
  | chunkRsv30 (bank : BitVec 3) (reserved : Byte) (payload : Bytes)
  /-- `CHUNK.RSV31`, type id 31 (R124) -/
  | chunkRsv31 (bank : BitVec 3) (reserved : Byte) (payload : Bytes)
  /-- `PARSE`, opcode 0x01 (R110) -/
  | parse
  /-- `SERIALIZE`, opcode 0x02 (R125) -/
  | serialize
  /-- `SETPIXEL`, opcode 0x10 (R137) -/
  | setPixel
  /-- `GETPIXEL`, opcode 0x11 (R138) -/
  | getPixel
  /-- `SETCOLOR`, opcode 0x20 (R153) -/
  | setColor
  /-- `GETCOLOR`, opcode 0x21 (R152) -/
  | getColor
  /-- `SETTILE`, opcode 0x30 (R161) -/
  | setTile
  /-- `GETTILE`, opcode 0x31 (R162) -/
  | getTile
  /-- `SETFLAGS`, opcode 0x40 (R171) -/
  | setFlags
  /-- `GETFLAGS`, opcode 0x41 (R172) -/
  | getFlags
  /-- `GETSOURCE`, opcode 0x50 (R186) -/
  | getSource
  /-- `SETBODY`, opcode 0x51 (R188) -/
  | setBody
  /-- `SETHEADERS`, opcode 0x52 (R190) -/
  | setHeaders
  /-- `LOOKUP`, opcode 0x60 (R200) -/
  | lookup
  /-- `HASTYPE`, opcode 0x61 (R202) -/
  | hasType
  /-- `CREATE`, opcode 0x62 (R204) -/
  | create
  /-- `RDCHUNK`, opcode 0x63 (R206) -/
  | rdChunk
  /-- `WRDATA`, opcode 0x64 (R208) -/
  | wrData
  /-- `IMPORT`, opcode 0x65 (R212) -/
  | importColors
deriving DecidableEq, Repr

end Sys2Proof
end

