-- ==== Sys2Proof/WellFormed.lean ====
section
/-! DEFINITION. When an instruction is well formed: its payload fits the 16-bit length field (R79). -/

namespace Sys2Proof

/-- A frame's payload fits its length field: 0 to 65535 bytes (R22, R79). -/
def payloadFits (payload : Bytes) : Bool := decide (payload.length ≤ Config.maxPayload)

/-- The operands of an instruction are values its encoding can carry. A command has no operand in its encoding. -/
def Instr.wellFormed : Instr → Bool
  | .chunkRsv0 _ _ payload => payloadFits payload
  | .chunkTiles _ _ payload => payloadFits payload
  | .chunkSprites _ _ payload => payloadFits payload
  | .chunkCoverDep _ _ payload => payloadFits payload
  | .chunkMap _ _ payload => payloadFits payload
  | .chunkCode _ _ payload => payloadFits payload
  | .chunkFlags _ _ payload => payloadFits payload
  | .chunkRsv7 _ _ payload => payloadFits payload
  | .chunkRsv8 _ _ payload => payloadFits payload
  | .chunkSamples _ _ payload => payloadFits payload
  | .chunkWaveform _ _ payload => payloadFits payload
  | .chunkRsv11 _ _ payload => payloadFits payload
  | .chunkPalette _ _ payload => payloadFits payload
  | .chunkPatternsDep _ _ payload => payloadFits payload
  | .chunkMusic _ _ payload => payloadFits payload
  | .chunkPatterns _ _ payload => payloadFits payload
  | .chunkZcodeDep _ _ payload => payloadFits payload
  | .chunkDefault _ _ payload => payloadFits payload
  | .chunkScreen _ _ payload => payloadFits payload
  | .chunkBinary _ _ payload => payloadFits payload
  | .chunkRsv20 _ _ payload => payloadFits payload
  | .chunkRsv21 _ _ payload => payloadFits payload
  | .chunkRsv22 _ _ payload => payloadFits payload
  | .chunkRsv23 _ _ payload => payloadFits payload
  | .chunkRsv24 _ _ payload => payloadFits payload
  | .chunkRsv25 _ _ payload => payloadFits payload
  | .chunkRsv26 _ _ payload => payloadFits payload
  | .chunkRsv27 _ _ payload => payloadFits payload
  | .chunkRsv28 _ _ payload => payloadFits payload
  | .chunkRsv29 _ _ payload => payloadFits payload
  | .chunkRsv30 _ _ payload => payloadFits payload
  | .chunkRsv31 _ _ payload => payloadFits payload
  | .parse => true
  | .serialize => true
  | .setPixel => true
  | .getPixel => true
  | .setColor => true
  | .getColor => true
  | .setTile => true
  | .getTile => true
  | .setFlags => true
  | .getFlags => true
  | .getSource => true
  | .setBody => true
  | .setHeaders => true
  | .lookup => true
  | .hasType => true
  | .create => true
  | .rdChunk => true
  | .wrData => true
  | .importColors => true

end Sys2Proof
end

