-- ==== Sys2Proof/Decode.lean ====
section
/-! DEFINITION. The decoder of both encodings, total on any bytes and rejecting by name, and after it the encoder
(30_encoding.md). -/

namespace Sys2Proof

/-- Why bytes are no instruction. -/
inductive Reject where
  /-- fewer than 4 bytes where a frame header should be (R85, R113) -/
  | truncatedHeader
  /-- fewer payload bytes than the length field announces (R85, R113) -/
  | truncatedPayload
  /-- no opcode byte was given -/
  | noOpcode
  /-- a value that R87 does not assign (R89) -/
  | reservedOpcode (op : Byte)
deriving DecidableEq, Repr

/-- A 16-bit length from its low and its high byte (R52, R79). -/
def le16 (lo hi : Byte) : Nat := lo.toNat + 256 * hi.toNat

/-- The fields of the frame that stands at the front of `bs`, and the bytes after it (R75, R77, R79, R84).
The reserved byte takes any value (R80). -/
def takeFrame : Bytes → Except Reject (Frame × Bytes)
  | hb :: b1 :: b2 :: b3 :: body =>
    if body.length < le16 b1 b2 then .error .truncatedPayload
    else .ok ({ typeId := hb.extractLsb' 0 5, bank := hb.extractLsb' 5 3, reserved := b3,
                payload := body.take (le16 b1 b2) }, body.drop (le16 b1 b2))
  | _ => .error .truncatedHeader

/-- The instruction a frame is: its type id is the opcode (R82, the registry R81). A 5-bit value is below 32, so the
last arm is type id 31 and nothing else. -/
def Frame.toInstr (f : Frame) : Instr :=
  match f.typeId.toNat with
  | 0 => .chunkRsv0 f.bank f.reserved f.payload
  | 1 => .chunkTiles f.bank f.reserved f.payload
  | 2 => .chunkSprites f.bank f.reserved f.payload
  | 3 => .chunkCoverDep f.bank f.reserved f.payload
  | 4 => .chunkMap f.bank f.reserved f.payload
  | 5 => .chunkCode f.bank f.reserved f.payload
  | 6 => .chunkFlags f.bank f.reserved f.payload
  | 7 => .chunkRsv7 f.bank f.reserved f.payload
  | 8 => .chunkRsv8 f.bank f.reserved f.payload
  | 9 => .chunkSamples f.bank f.reserved f.payload
  | 10 => .chunkWaveform f.bank f.reserved f.payload
  | 11 => .chunkRsv11 f.bank f.reserved f.payload
  | 12 => .chunkPalette f.bank f.reserved f.payload
  | 13 => .chunkPatternsDep f.bank f.reserved f.payload
  | 14 => .chunkMusic f.bank f.reserved f.payload
  | 15 => .chunkPatterns f.bank f.reserved f.payload
  | 16 => .chunkZcodeDep f.bank f.reserved f.payload
  | 17 => .chunkDefault f.bank f.reserved f.payload
  | 18 => .chunkScreen f.bank f.reserved f.payload
  | 19 => .chunkBinary f.bank f.reserved f.payload
  | 20 => .chunkRsv20 f.bank f.reserved f.payload
  | 21 => .chunkRsv21 f.bank f.reserved f.payload
  | 22 => .chunkRsv22 f.bank f.reserved f.payload
  | 23 => .chunkRsv23 f.bank f.reserved f.payload
  | 24 => .chunkRsv24 f.bank f.reserved f.payload
  | 25 => .chunkRsv25 f.bank f.reserved f.payload
  | 26 => .chunkRsv26 f.bank f.reserved f.payload
  | 27 => .chunkRsv27 f.bank f.reserved f.payload
  | 28 => .chunkRsv28 f.bank f.reserved f.payload
  | 29 => .chunkRsv29 f.bank f.reserved f.payload
  | 30 => .chunkRsv30 f.bank f.reserved f.payload
  | _ => .chunkRsv31 f.bank f.reserved f.payload

/-- The frame at the front of `bs` as an instruction. -/
def decodeFrame (bs : Bytes) : Except Reject (Instr × Bytes) :=
  match takeFrame bs with
  | .ok (f, rest) => .ok (f.toInstr, rest)
  | .error e => .error e

/-- The command of an opcode byte (R86, R87): the opcode is the whole byte. -/
def decodeCommand (op : Byte) : Except Reject Instr :=
  match op.toNat with
  | 0x01 => .ok .parse
  | 0x02 => .ok .serialize
  | 0x10 => .ok .setPixel
  | 0x11 => .ok .getPixel
  | 0x20 => .ok .setColor
  | 0x21 => .ok .getColor
  | 0x30 => .ok .setTile
  | 0x31 => .ok .getTile
  | 0x40 => .ok .setFlags
  | 0x41 => .ok .getFlags
  | 0x50 => .ok .getSource
  | 0x51 => .ok .setBody
  | 0x52 => .ok .setHeaders
  | 0x60 => .ok .lookup
  | 0x61 => .ok .hasType
  | 0x62 => .ok .create
  | 0x63 => .ok .rdChunk
  | 0x64 => .ok .wrData
  | 0x65 => .ok .importColors
  | _ => .error (.reservedOpcode op)

/-- The decoder: the instruction at the front of the bytes a port delivers, and the bytes after it. -/
def decode (p : Port) (bs : Bytes) : Except Reject (Instr × Bytes) :=
  match p, bs with
  | .frame, bs => decodeFrame bs
  | .command, [] => .error .noOpcode
  | .command, op :: rest =>
    match decodeCommand op with
    | .ok i => .ok (i, rest)
    | .error e => .error e

/-- What an instruction is in its encoding: the fields of a frame, or an opcode. -/
inductive Form where
  | frame (f : Frame)
  | command (op : Byte)
deriving DecidableEq, Repr

/-- The form of each instruction: its type id (R81) or its opcode (R87). -/
def Instr.form : Instr → Form
  | .chunkRsv0 bank reserved payload => .frame ⟨0#5, bank, reserved, payload⟩
  | .chunkTiles bank reserved payload => .frame ⟨1#5, bank, reserved, payload⟩
  | .chunkSprites bank reserved payload => .frame ⟨2#5, bank, reserved, payload⟩
  | .chunkCoverDep bank reserved payload => .frame ⟨3#5, bank, reserved, payload⟩
  | .chunkMap bank reserved payload => .frame ⟨4#5, bank, reserved, payload⟩
  | .chunkCode bank reserved payload => .frame ⟨5#5, bank, reserved, payload⟩
  | .chunkFlags bank reserved payload => .frame ⟨6#5, bank, reserved, payload⟩
  | .chunkRsv7 bank reserved payload => .frame ⟨7#5, bank, reserved, payload⟩
  | .chunkRsv8 bank reserved payload => .frame ⟨8#5, bank, reserved, payload⟩
  | .chunkSamples bank reserved payload => .frame ⟨9#5, bank, reserved, payload⟩
  | .chunkWaveform bank reserved payload => .frame ⟨10#5, bank, reserved, payload⟩
  | .chunkRsv11 bank reserved payload => .frame ⟨11#5, bank, reserved, payload⟩
  | .chunkPalette bank reserved payload => .frame ⟨12#5, bank, reserved, payload⟩
  | .chunkPatternsDep bank reserved payload => .frame ⟨13#5, bank, reserved, payload⟩
  | .chunkMusic bank reserved payload => .frame ⟨14#5, bank, reserved, payload⟩
  | .chunkPatterns bank reserved payload => .frame ⟨15#5, bank, reserved, payload⟩
  | .chunkZcodeDep bank reserved payload => .frame ⟨16#5, bank, reserved, payload⟩
  | .chunkDefault bank reserved payload => .frame ⟨17#5, bank, reserved, payload⟩
  | .chunkScreen bank reserved payload => .frame ⟨18#5, bank, reserved, payload⟩
  | .chunkBinary bank reserved payload => .frame ⟨19#5, bank, reserved, payload⟩
  | .chunkRsv20 bank reserved payload => .frame ⟨20#5, bank, reserved, payload⟩
  | .chunkRsv21 bank reserved payload => .frame ⟨21#5, bank, reserved, payload⟩
  | .chunkRsv22 bank reserved payload => .frame ⟨22#5, bank, reserved, payload⟩
  | .chunkRsv23 bank reserved payload => .frame ⟨23#5, bank, reserved, payload⟩
  | .chunkRsv24 bank reserved payload => .frame ⟨24#5, bank, reserved, payload⟩
  | .chunkRsv25 bank reserved payload => .frame ⟨25#5, bank, reserved, payload⟩
  | .chunkRsv26 bank reserved payload => .frame ⟨26#5, bank, reserved, payload⟩
  | .chunkRsv27 bank reserved payload => .frame ⟨27#5, bank, reserved, payload⟩
  | .chunkRsv28 bank reserved payload => .frame ⟨28#5, bank, reserved, payload⟩
  | .chunkRsv29 bank reserved payload => .frame ⟨29#5, bank, reserved, payload⟩
  | .chunkRsv30 bank reserved payload => .frame ⟨30#5, bank, reserved, payload⟩
  | .chunkRsv31 bank reserved payload => .frame ⟨31#5, bank, reserved, payload⟩
  | .parse => .command 0x01#8
  | .serialize => .command 0x02#8
  | .setPixel => .command 0x10#8
  | .getPixel => .command 0x11#8
  | .setColor => .command 0x20#8
  | .getColor => .command 0x21#8
  | .setTile => .command 0x30#8
  | .getTile => .command 0x31#8
  | .setFlags => .command 0x40#8
  | .getFlags => .command 0x41#8
  | .getSource => .command 0x50#8
  | .setBody => .command 0x51#8
  | .setHeaders => .command 0x52#8
  | .lookup => .command 0x60#8
  | .hasType => .command 0x61#8
  | .create => .command 0x62#8
  | .rdChunk => .command 0x63#8
  | .wrData => .command 0x64#8
  | .importColors => .command 0x65#8

/-- The port that delivers an instruction. -/
def Instr.port (i : Instr) : Port :=
  match i.form with
  | .frame _ => .frame
  | .command _ => .command

/-- Two bytes, low byte first (R52, R58). -/
def encodeLe16 (n : Nat) : Bytes := [BitVec.ofNat 8 n, BitVec.ofNat 8 (n / 256)]

/-- The bytes of a frame in the layout of R83: the bank in bits 7..5 of the header byte, the type id in bits 4..0.
(What SERIALIZE writes uses `BANK_SHIFT` instead, R76.) -/
def encodeFrame (f : Frame) : Bytes :=
  [(f.bank ++ f.typeId : BitVec 8)] ++ encodeLe16 f.payload.length ++ [f.reserved] ++ f.payload

/-- The encoder: the bytes of an instruction. -/
def encode (i : Instr) : Bytes :=
  match i.form with
  | .frame f => encodeFrame f
  | .command op => [op]

/-- `count` bytes of the number `w`, bits 7..0 first. -/
def wordBytes (w count : Nat) : Bytes :=
  (List.range count).map fun j => BitVec.ofNat 8 (w >>> (8 * j))

/-- The bytes a table word stands for as a frame: its header, and as many payload bytes as its length field says. -/
def tableFrameBytes (w : Nat) : Bytes :=
  wordBytes w (4 + le16 (BitVec.ofNat 8 (w >>> 8)) (BitVec.ofNat 8 (w >>> 16)))

/-- The instruction a table word of `nbits` bits stands for. The table has two formats: a word of one byte is an
opcode where R87 assigns it, and every other word is a frame whose bits above `nbits` are 0 (log 9). -/
def tableInstr (nbits w : Nat) : Except Reject Instr :=
  let asFrame := (decodeFrame (tableFrameBytes w)).map (·.1)
  if nbits ≤ 8 then
    match decodeCommand (BitVec.ofNat 8 w) with
    | .ok i => .ok i
    | .error _ => asFrame
  else asFrame

/-- The instruction the decoder reads from a table word; `none` where it rejects. -/
def decodeTableWord (nbits w : Nat) : Option Instr :=
  match tableInstr nbits w with
  | .ok i => some i
  | .error _ => none

end Sys2Proof
end

