-- ==== Sys2Proof/Machine/State.lean ====
section
/-! DEFINITION. The machine's state as plain data, the reasons a step can stop, and the state after reset
(10_state.md). -/

namespace Sys2Proof.Machine

/-- A byte space (R50) as its cells: addresses strictly rising, no cell holding the value 0 that an unlisted address
reads as (log 5). -/
abbrev Mem := List Host.Cell

/-- A chunk record (R22). Its variant is computed from the type id, not stored. -/
structure Chunk where
  typeId : BitVec 5
  bank : BitVec 3
  /-- the payload, 0 to 65535 bytes (R22, R23) -/
  data : Bytes
deriving DecidableEq, Repr

/-- The codec variants of the registry (R15, R81). -/
inductive Variant where
  | tiles
  | sprites
  | map
  | code
  | flags
  | palette
  | generic
deriving DecidableEq, Repr

/-- The five error kinds of the block (R220). An `InvalidArgument` names the argument and its legal range (R227). -/
inductive CmdError where
  | invalidArgument (arg : Byte) (lo hi : Word)
  | unknownChunkType
  | truncatedInput
  | paletteSizeMismatch
  | underSizedPalettePayload
deriving DecidableEq, Repr

/-- What the sequencer does next (the model's own, log 1, log 2). -/
inductive Phase where
  /-- between commands: the host may act (R38) -/
  | idle
  /-- the host has written `CMD`; the command has not run yet (R30) -/
  | issued
  /-- inside PARSE, at a frame boundary (R110, R111) -/
  | parsing
deriving DecidableEq, Repr

/-- The registers of the window (R29). -/
inductive Reg where
  | cmd | err | errArg | errLo | errHi | chn | pos | flags | cfgFill | inLen | outLen | dinLen | doutLen
  | a (i : Fin 6)
  | r (i : Fin 4)
deriving DecidableEq, Repr

/-- One access of the host, made between commands (R38): register writes and reads at the offsets of R29, one-byte
buffer writes and reads (R50, R60), and the block's one reset (R251). -/
inductive HostAccess where
  | writeReg (offset : Nat) (v : Word)
  | readReg (offset : Nat)
  | writeIn (addr : Word) (b : Byte)
  | writeDin (addr : Word) (b : Byte)
  | readOut (addr : Word)
  | readDout (addr : Word)
  | reset
deriving DecidableEq, Repr

/-- The state: every piece R20 names, the two parameters of R6, and the model's own fields. -/
structure State where
  /-- `CMD` (R30) -/
  cmd : Byte
  /-- `ERR` (R221) -/
  err : Byte
  /-- `ERRARG` (R227) -/
  errArg : Byte
  /-- `ERRLO` (R227) -/
  errLo : Word
  /-- `ERRHI` (R227) -/
  errHi : Word
  /-- `POS`, the stream cursor (R27) -/
  pos : Word
  /-- `CFG_FILL` (R32) -/
  cfgFill : Byte
  /-- `INLEN` (R34) -/
  inLen : Word
  /-- `OUTLEN` (R34) -/
  outLen : Word
  /-- `DINLEN` (R34) -/
  dinLen : Word
  /-- `DOUTLEN` (R34) -/
  doutLen : Word
  /-- `A[0..5]`, the operand registers (R25) -/
  a : Vector Word 6
  /-- `R[0..3]`, the result registers (R26) -/
  r : Vector Word 4
  /-- `CH`, the chunk store (R21) -/
  ch : List Chunk
  /-- `IN` (R34) -/
  inBuf : Mem
  /-- `OUT` (R34) -/
  outBuf : Mem
  /-- `DIN` (R34) -/
  dinBuf : Mem
  /-- `DOUT` (R34) -/
  doutBuf : Mem
  /-- the parameters of R6; no step writes them -/
  params : Config.Params
  /-- model's own: the sequencer's phase (log 1, log 2) -/
  seq : Phase
  /-- model's own: the staging list of R36 (log 1) -/
  staging : List Chunk
  /-- model's own: the accesses the host has still to make, in order (log 2) -/
  host : List HostAccess
  /-- model's own: what the host's last read returned (log 11) -/
  bus : Word
  /-- model's own: how many free values have been drawn (log 6) -/
  freeCount : Nat
deriving DecidableEq, Repr

/-- Why the machine stops for good. The block itself has no such condition (R220): its errors are next states. -/
inductive Fault where
  /-- Raised by a host write to `IN` or `DIN` at an address the space does not have: R50 gives a space at most
  2^32 - 1 bytes, so address 2^32 - 1 does not exist (log 8). Safe. -/
  | outsideSpace (addr : Nat)
deriving DecidableEq, Repr

/-- Why a step has no meaning. -/
inductive Refusal where
  /-- Raised by an arm of `exec` whose instruction has no meaning yet; no arm does. Safe. -/
  | notModelled (mnemonic : String)
  /-- Raised by PARSE, CREATE or IMPORT when the store would pass `MAX_CHUNKS`, and by SERIALIZE or LOOKUP when the
  result would be 2^32 bytes or more: "outside the defined domain", "a model refuses" (U6, D28; log 4). Safe. -/
  | overCapacity (mnemonic : String)
  /-- Raised by a host access at an offset that the table of R29 does not list (log 7). Safe. -/
  | noRegister (offset : Nat)
  /-- Raised by a host write to a register whose access column in R29 is read only (log 7). Safe. -/
  | readOnlyRegister (offset : Nat)
deriving DecidableEq, Repr

/-- The reset state (R37, R250): every register 0, every buffer and the store empty. The parameters have the defaults
of R6; the model's own fields are idle and empty (log 1, log 2, log 6, log 11). -/
def State.reset : State where
  cmd := 0#8
  err := 0#8
  errArg := 0#8
  errLo := 0#32
  errHi := 0#32
  pos := 0#32
  cfgFill := 0#8
  inLen := 0#32
  outLen := 0#32
  dinLen := 0#32
  doutLen := 0#32
  a := #v[0#32, 0#32, 0#32, 0#32, 0#32, 0#32]
  r := #v[0#32, 0#32, 0#32, 0#32]
  ch := []
  inBuf := []
  outBuf := []
  dinBuf := []
  doutBuf := []
  params := Config.Params.default
  seq := .idle
  staging := []
  host := []
  bus := 0#32
  freeCount := 0

end Sys2Proof.Machine
end

