-- ==== Sys2Proof/Machine/Registry.lean ====
section
/-! DEFINITION. The ChunkTypeRegistry: a constant table from a type id to a name, its registration and its variant
(R15, R81, R35). -/

namespace Sys2Proof.Machine

/-- `variant(t)` (R15): a function of the type id alone (R82). -/
def variant (t : BitVec 5) : Variant :=
  match t.toNat with
  | 1 => .tiles
  | 2 => .sprites
  | 4 => .map
  | 5 => .code
  | 6 => .flags
  | 12 => .palette
  | _ => .generic

/-- `registered(t)` (R15), for the full value of an operand register: no value above 31 is registered (R203). -/
def registered (t : Nat) : Bool :=
  t ∈ [1, 2, 3, 4, 5, 6, 9, 10, 12, 13, 14, 15, 16, 17, 18, 19]

/-- One row of the table of R81. -/
structure RegistryRow where
  typeId : Nat
  name : String
  inRegistry : Bool
  variant : Variant
deriving DecidableEq, Repr

/-- The table of R81, row by row. -/
def registryTable : List RegistryRow := [
  ⟨0, "(reserved)", false, .generic⟩,
  ⟨1, "Tiles", true, .tiles⟩,
  ⟨2, "Sprites", true, .sprites⟩,
  ⟨3, "reserved/deprecated cover", true, .generic⟩,
  ⟨4, "Map", true, .map⟩,
  ⟨5, "Code", true, .code⟩,
  ⟨6, "Flags", true, .flags⟩,
  ⟨7, "(reserved)", false, .generic⟩,
  ⟨8, "(reserved)", false, .generic⟩,
  ⟨9, "Samples", true, .generic⟩,
  ⟨10, "Waveform", true, .generic⟩,
  ⟨11, "(reserved)", false, .generic⟩,
  ⟨12, "Palette", true, .palette⟩,
  ⟨13, "reserved/deprecated patterns", true, .generic⟩,
  ⟨14, "Music", true, .generic⟩,
  ⟨15, "Patterns", true, .generic⟩,
  ⟨16, "reserved/deprecated zipped-code", true, .generic⟩,
  ⟨17, "Default", true, .generic⟩,
  ⟨18, "Screen", true, .generic⟩,
  ⟨19, "Binary", true, .generic⟩,
  ⟨20, "(reserved)", false, .generic⟩,
  ⟨21, "(reserved)", false, .generic⟩,
  ⟨22, "(reserved)", false, .generic⟩,
  ⟨23, "(reserved)", false, .generic⟩,
  ⟨24, "(reserved)", false, .generic⟩,
  ⟨25, "(reserved)", false, .generic⟩,
  ⟨26, "(reserved)", false, .generic⟩,
  ⟨27, "(reserved)", false, .generic⟩,
  ⟨28, "(reserved)", false, .generic⟩,
  ⟨29, "(reserved)", false, .generic⟩,
  ⟨30, "(reserved)", false, .generic⟩,
  ⟨31, "(reserved)", false, .generic⟩]

/-- A type name usable in place of a type id, resolved outside the block (R97 (a)): the thirteen single-word names. -/
def idOfName (name : String) : Option Nat :=
  match registryTable.find? fun row => row.inRegistry && row.name == name && !(row.typeId ∈ [3, 13, 16]) with
  | some row => some row.typeId
  | none => none

end Sys2Proof.Machine
end

