-- ==== Sys2Proof/Machine/Ops.lean ====
section
/-! DEFINITION. The named operations: byte spaces, byte sequences, raising an error, completing a command, selecting
a chunk, writing the store and the results. -/

namespace Sys2Proof.Machine

/-- The outcome of a step. -/
abbrev StepResult := Host.Outcome State Fault Refusal

/-! ## Byte spaces (20_memory.md) -/

/-- The byte at an address; an unlisted address reads as 0 (log 5). -/
def Mem.read : Mem → Nat → Byte
  | [], _ => 0#8
  | (x, b) :: m, a => if x = a then b else Mem.read m a

/-- The space without the cell of an address. -/
def Mem.erase (m : Mem) (a : Nat) : Mem := m.filter fun c => c.1 != a

/-- The space with a cell put at its place in the rising order, over the one that was there. -/
def Mem.insert : Mem → Nat → Byte → Mem
  | [], a, b => [(a, b)]
  | (x, c) :: m, a, b =>
    if a < x then (a, b) :: (x, c) :: m
    else if a = x then (a, b) :: m
    else (x, c) :: Mem.insert m a b

/-- A one-byte write (R60). Writing what an unlisted address reads as removes the cell, so equal spaces are equal
lists. -/
def Mem.write (m : Mem) (a : Nat) (b : Byte) : Mem :=
  if b = 0#8 then Mem.erase m a else Mem.insert m a b

/-- `MemRead(S, a, n)` (R11). -/
def Mem.readRange (m : Mem) (a n : Nat) : Bytes := (List.range n).map fun i => Mem.read m (a + i)

/-- `MemWrite(S, a, n, v)` with `n` the length of `v` (R11). -/
def Mem.writeBytes (m : Mem) (a : Nat) : Bytes → Mem
  | [] => m
  | b :: bs => Mem.writeBytes (Mem.write m a b) (a + 1) bs

/-- The space that holds `bs` from address `a` on and nothing else. -/
def Mem.ofBytesFrom (a : Nat) : Bytes → Mem
  | [] => []
  | b :: bs => if b = 0#8 then Mem.ofBytesFrom (a + 1) bs else (a, b) :: Mem.ofBytesFrom (a + 1) bs

/-- The space that holds exactly `bs` from address 0 on: what SERIALIZE makes `OUT` (R129) and a data result `DOUT`. -/
def Mem.ofBytes (bs : Bytes) : Mem := Mem.ofBytesFrom 0 bs

/-- The canonical form: addresses strictly rising, no cell holding what an unlisted address reads as. -/
abbrev Mem.wf (m : Mem) : Prop := m.Pairwise (fun c d => c.1 < d.1) ∧ ∀ c ∈ m, c.2 ≠ 0#8

/-! ## Byte sequences (R9, R13, R14) -/

/-- `zeros(n)` (R9). -/
def zeros (n : Nat) : Bytes := List.replicate n 0#8

/-- `Grow(d, i)` (R13). -/
def grow (d : Bytes) (i : Nat) : Bytes := if i < d.length then d else d ++ zeros (i + 1 - d.length)

/-- `StripTZ(d)` (R14): the bytes up to the last one that is not zero. -/
def stripTZ : Bytes → Bytes
  | [] => []
  | b :: bs =>
    match stripTZ bs with
    | [] => if b = 0#8 then [] else [b]
    | c :: cs => b :: c :: cs

/-- A growth-tolerant read: the byte at an address, 0 at and beyond the end (R63). -/
def byteAt (d : Bytes) (a : Nat) : Byte := d.getD a 0#8

/-- The byte a growing write is about to change: `d[a] <- b` after `Grow(d, a)` (R64). -/
def growSet (d : Bytes) (a : Nat) (b : Byte) : Bytes := (grow d a).set a b

/-- Four bytes, low byte first (R92). -/
def encodeLe32 (n : Nat) : Bytes :=
  [BitVec.ofNat 8 n, BitVec.ofNat 8 (n / 256), BitVec.ofNat 8 (n / 65536), BitVec.ofNat 8 (n / 16777216)]

/-! ## Registers -/

/-- The value of operand register `A[i]` as a natural number (R25, R88: all 32 bits). -/
def State.arg (s : State) (i : Fin 6) : Nat := s.a[i].toNat

/-- `R[i] <- v` (R26). -/
def State.setR (s : State) (i : Fin 4) (v : Word) : State := { s with r := s.r.set i v }

/-- `DIN[0..DINLEN)` (R34). -/
def State.din (s : State) : Bytes := Mem.readRange s.dinBuf 0 s.dinLen.toNat

/-- `IN[0..INLEN)` (R34). -/
def State.inBytes (s : State) : Bytes := Mem.readRange s.inBuf 0 s.inLen.toNat

/-- `OUT[0..OUTLEN)` (R34). -/
def State.out (s : State) : Bytes := Mem.readRange s.outBuf 0 s.outLen.toNat

/-- `DOUT[0..DOUTLEN)` (R34). -/
def State.dout (s : State) : Bytes := Mem.readRange s.doutBuf 0 s.doutLen.toNat

/-- `OUT <- o ; OUTLEN <- len(o)`, the buffer replaced as a whole (R129). -/
def State.setOut (s : State) (bs : Bytes) : State :=
  { s with outBuf := Mem.ofBytes bs, outLen := BitVec.ofNat 32 bs.length }

/-- `DOUT <- o ; DOUTLEN <- len(o)` (R34). -/
def State.setDout (s : State) (bs : Bytes) : State :=
  { s with doutBuf := Mem.ofBytes bs, doutLen := BitVec.ofNat 32 bs.length }

/-! ## Errors (60_exceptions.md): entry, and the end of a command -/

/-- The error code (R221). -/
def CmdError.code : CmdError → Byte
  | .invalidArgument _ _ _ => 1#8
  | .unknownChunkType => 2#8
  | .truncatedInput => 3#8
  | .paletteSizeMismatch => 4#8
  | .underSizedPalettePayload => 5#8

/-- What `ERRARG` takes (R227). -/
def CmdError.arg : CmdError → Byte
  | .invalidArgument arg _ _ => arg
  | .unknownChunkType => 0#8
  | .truncatedInput => 0#8
  | .paletteSizeMismatch => 0#8
  | .underSizedPalettePayload => 0#8

/-- What `ERRLO` takes (R227). -/
def CmdError.lo : CmdError → Word
  | .invalidArgument _ lo _ => lo
  | .unknownChunkType => 0#32
  | .truncatedInput => 0#32
  | .paletteSizeMismatch => 0#32
  | .underSizedPalettePayload => 0#32

/-- What `ERRHI` takes (R227). -/
def CmdError.hi : CmdError → Word
  | .invalidArgument _ _ hi => hi
  | .unknownChunkType => 0#32
  | .truncatedInput => 0#32
  | .paletteSizeMismatch => 0#32
  | .underSizedPalettePayload => 0#32

/-- Taking an exception: the one entry of R226. The error registers take the error's values; no mode, mask, saved
cursor or handler exists, and nothing else changes. -/
def State.raise (s : State) (e : CmdError) : State :=
  { s with err := e.code, errArg := e.arg, errLo := e.lo, errHi := e.hi }

/-- The end of a command without error: the error registers are rewritten to zero (R31). There is no return from an
error beside this (R229): the next command rewrites the registers. -/
def State.complete (s : State) : State :=
  { s with err := 0#8, errArg := 0#8, errLo := 0#32, errHi := 0#32 }

/-- A command: its checks, all made before its first write (R12), and then its effect on what they yield. The first
check that fails is the error raised (R231). -/
def attempt {α : Type} (s : State) (checks : Except CmdError α) (effect : α → StepResult) : StepResult :=
  match checks with
  | .error e => .next (s.raise e)
  | .ok x => effect x

/-! ## Checks (R222) -/

/-- The argument numbers of R227 that are not operand registers. -/
def argType : Byte := 0xFD#8

/-- `ERRARG` of the variable-length operand in `DIN` (R227). -/
def argDin : Byte := 0xFE#8

/-- `ERRARG` of the opcode (R227). -/
def argOpcode : Byte := 0xFF#8

/-- `InvalidArgument` with natural-number bounds (R227). -/
def badArgument (arg : Byte) (lo hi : Nat) : CmdError :=
  .invalidArgument arg (BitVec.ofNat 32 lo) (BitVec.ofNat 32 hi)

/-- An operand must lie in `lo..hi` (R222). -/
def checkRange (arg : Byte) (v lo hi : Nat) : Except CmdError Unit :=
  if v < lo ∨ hi < v then .error (badArgument arg lo hi) else .ok ()

/-- A payload must fit 16 bits (R23, R222). -/
def checkPayload (n : Nat) : Except CmdError Unit := checkRange argDin n 0 Config.maxPayload

/-- A palette payload must have 48 bytes (R151, R228). -/
def checkPaletteSize (d : Bytes) : Except CmdError Unit :=
  if d.length < Config.paletteBytes then .error .underSizedPalettePayload else .ok ()

/-- The variant sets the codec commands accept (R16). -/
inductive CodecClass where
  | pixels
  | palette
  | map
  | flags
  | code
deriving DecidableEq, Repr

/-- The variants of a class. -/
def CodecClass.accepts : CodecClass → Variant → Bool
  | .pixels, v => v == .tiles || v == .sprites
  | .palette, v => v == .palette
  | .map, v => v == .map
  | .flags, v => v == .flags
  | .code, v => v == .code

/-- The range of type ids whose variants make up a class (R16, R227). -/
def CodecClass.typeRange : CodecClass → Nat × Nat
  | .pixels => (1, 2)
  | .palette => (12, 12)
  | .map => (4, 4)
  | .flags => (6, 6)
  | .code => (5, 5)

/-- The chunk `A[0]` selects, whatever its variant (R206, R208; R207 for the empty store). -/
def State.selectAny (s : State) : Except CmdError Chunk :=
  match s.ch[s.arg 0]? with
  | none => .error (badArgument 0x00#8 0 (max s.ch.length 1 - 1))
  | some c => .ok c

/-- `Select(k, V)` (R16): the dispatch check every codec command begins with. -/
def State.select (s : State) (cls : CodecClass) : Except CmdError Chunk := do
  let c ← s.selectAny
  if cls.accepts (variant c.typeId) then .ok c
  else .error (badArgument argType cls.typeRange.1 cls.typeRange.2)

/-! ## The chunk store -/

/-- `CH[k].data <- d`: the record keeps its type id and bank (R205). -/
def State.setData (s : State) (k : Nat) (d : Bytes) : State :=
  { s with ch := s.ch.modify k fun c => { c with data := d } }

/-- A record appended at the end of the store (R21), its index in `R[0]` (R204), and then what else the command
writes. A store that already holds `MAX_CHUNKS` records is outside the defined domain (U6, log 4). -/
def State.appendRecord (s : State) (name : String) (c : Chunk) (more : State → State) : StepResult :=
  if s.ch.length < s.params.maxChunks.toNat then
    .next (more ({ s with ch := s.ch ++ [c] }.setR 0 (BitVec.ofNat 32 s.ch.length))).complete
  else .refused (.overCapacity name)

/-- The record a frame becomes: its fields verbatim, the reserved byte dropped (R80, R110). -/
def frameRecord (f : Frame) : Chunk := { typeId := f.typeId, bank := f.bank, data := f.payload }

/-- One pass of PARSE's loop after its fetch (R110, R111): append the record to the staging list and advance the
cursor by `4 + n`. No flag is written and no error raised. -/
def State.passFrame (s : State) (f : Frame) : State :=
  { s with staging := s.staging ++ [frameRecord f], pos := s.pos + BitVec.ofNat 32 (4 + f.payload.length) }

/-- The end of PARSE at a frame boundary (R112): the staging list becomes the store, whole, and `R[0]` its length.
More than `MAX_CHUNKS` records are outside the defined domain (U6, log 4). -/
def State.commitParse (s : State) : StepResult :=
  if s.staging.length ≤ s.params.maxChunks.toNat then
    .next ({ s with ch := s.staging, staging := [], seq := .idle }.setR 0 (BitVec.ofNat 32 s.staging.length)).complete
  else .refused (.overCapacity "PARSE")

/-- The end of PARSE inside a frame (R113): `TruncatedInput`; `POS` is left at the incomplete frame's first byte and
the staging list is dropped. -/
def State.truncateParse (s : State) : State :=
  { s with staging := [], seq := .idle }.raise .truncatedInput

end Sys2Proof.Machine
end

