-- ==== Sys2Proof/Machine/Operands.lean ====
section
/-! DEFINITION. The operand forms: for each command that takes operands, its checks in the order of R231 and the
values they yield. -/

namespace Sys2Proof.Machine

/-- What `PixelAddr` yields (R136): the chunk, the byte address `a` and the nibble selector `h`. -/
structure PixelTarget where
  chunk : Chunk
  addr : Nat
  odd : Bool
deriving DecidableEq, Repr

/-- The sprite number within the chunk: id ranges depend on the chunk's variant (R136, R270). -/
def spriteNumber (v : Variant) (id : Nat) : Except CmdError Nat :=
  if v = .tiles then do
    checkRange 0x01#8 id 0 255
    return id
  else do
    checkRange 0x01#8 id 256 511
    return id - 256

/-- The byte address of pixel `(x, y)` of sprite number `n` (R135, R136). -/
def pixelByte (n x y : Nat) : Nat := n * Config.spriteBytes + x / 2 + y * Config.rowBytes

/-- `PixelAddr` (R136). -/
def State.pixelAddr (s : State) : Except CmdError PixelTarget := do
  let c ← s.select .pixels
  let n ← spriteNumber (variant c.typeId) (s.arg 1)
  checkRange 0x02#8 (s.arg 2) 0 7
  checkRange 0x03#8 (s.arg 3) 0 7
  return { chunk := c, addr := pixelByte n (s.arg 2) (s.arg 3), odd := s.arg 2 % 2 == 1 }

/-- SETPIXEL's operands: the pixel, then the colour index (R137). -/
def State.setPixelOperands (s : State) : Except CmdError PixelTarget := do
  let t ← s.pixelAddr
  checkRange 0x04#8 (s.arg 4) 0 15
  return t

/-- GETCOLOR's operands: selector, colour id, then the payload size (R152). -/
def State.getColorOperands (s : State) : Except CmdError Chunk := do
  let c ← s.select .palette
  checkRange 0x01#8 (s.arg 1) 0 15
  checkPaletteSize c.data
  return c

/-- Whether SETCOLOR's mask supplies channel `j` (R153): bit `j` of `A[2]`. -/
def State.channelSupplied (s : State) (j : Nat) : Bool := s.a[2].getLsbD j

/-- A channel is checked only when it is supplied (R153). -/
def State.checkChannel (s : State) (arg : Byte) (j : Nat) (i : Fin 6) : Except CmdError Unit :=
  if s.channelSupplied j then checkRange arg (s.arg i) 0 255 else .ok ()

/-- SETCOLOR's operands: selector, colour id, mask, each supplied channel, then the payload size (R153). -/
def State.setColorOperands (s : State) : Except CmdError Chunk := do
  let c ← s.select .palette
  checkRange 0x01#8 (s.arg 1) 0 15
  checkRange 0x02#8 (s.arg 2) 0 7
  s.checkChannel 0x03#8 0 3
  s.checkChannel 0x04#8 1 4
  s.checkChannel 0x05#8 2 5
  checkPaletteSize c.data
  return c

/-- The byte address of map cell `(x, y)` (R160). -/
def mapByte (x y : Nat) : Nat := x + y * Config.mapWidth

/-- GETTILE's operands: selector, x, y (R162). -/
def State.getTileOperands (s : State) : Except CmdError Chunk := do
  let c ← s.select .map
  checkRange 0x01#8 (s.arg 1) 0 239
  checkRange 0x02#8 (s.arg 2) 0 239
  return c

/-- SETTILE's operands: the cell, then the tile id (R161). -/
def State.setTileOperands (s : State) : Except CmdError Chunk := do
  let c ← s.getTileOperands
  checkRange 0x03#8 (s.arg 3) 0 255
  return c

/-- GETFLAGS's operands: selector, sprite id (R172). -/
def State.getFlagsOperands (s : State) : Except CmdError Chunk := do
  let c ← s.select .flags
  checkRange 0x01#8 (s.arg 1) 0 511
  return c

/-- SETFLAGS's operands: the sprite, then the count; `bits` is never out of range (R171). -/
def State.setFlagsOperands (s : State) : Except CmdError Chunk := do
  let c ← s.getFlagsOperands
  checkRange 0x02#8 (s.arg 2) 0 8
  return c

/-- The type id LOOKUP and HASTYPE take (R200, R202). -/
def State.typeOperand (s : State) : Except CmdError Nat := do
  checkRange 0x00#8 (s.arg 0) 0 31
  return s.arg 0

/-- CREATE's operands: type, bank, payload length, in that order; the record they make (R204). -/
def State.createOperands (s : State) : Except CmdError Chunk :=
  if registered (s.arg 0) then do
    checkRange 0x01#8 (s.arg 1) 0 7
    checkPayload s.dinLen.toNat
    return { typeId := BitVec.ofNat 5 (s.arg 0), bank := BitVec.ofNat 3 (s.arg 1), data := s.din }
  else .error .unknownChunkType

/-- WRDATA's operands: selector, payload length (R208). -/
def State.wrDataOperands (s : State) : Except CmdError Chunk := do
  let c ← s.selectAny
  checkPayload s.dinLen.toNat
  return c

end Sys2Proof.Machine
end

