-- ==== Sys2Proof/Machine/Cartridge.lean ====
section
/-! DEFINITION. The cartridge container commands: LOOKUP, HASTYPE, CREATE, RDCHUNK, WRDATA and IMPORT
(47_cartridge.md). -/

namespace Sys2Proof.Machine

/-- The indices of the records of a type, ascending (R200, R201). -/
def indicesOfType (t : Nat) (cs : List Chunk) : List Nat :=
  (cs.zipIdx.filter fun p => p.1.typeId.toNat == t).map (·.2)

/-- The index-list wire format (R92). -/
def encodeIndices (ks : List Nat) : Bytes := ks.flatMap encodeLe32

/-- `LOOKUP` (R200): every record of a type, in store order. A list of 2^32 bytes or more is outside the defined
domain (U6, log 4). -/
def execLookup (s : State) : StepResult :=
  attempt s s.typeOperand fun t =>
    if (encodeIndices (indicesOfType t s.ch)).length < 2 ^ 32 then
      .next ((s.setDout (encodeIndices (indicesOfType t s.ch))).setR 0
        (BitVec.ofNat 32 (indicesOfType t s.ch).length)).complete
    else .refused (.overCapacity "LOOKUP")

/-- `HASTYPE` (R202): whether any record has a type. -/
def execHasType (s : State) : StepResult :=
  attempt s s.typeOperand fun t =>
    .next (s.setR 0 (if s.ch.any fun c => c.typeId.toNat == t then 1#32 else 0#32)).complete

/-- `CREATE` (R204): append a record with the payload in `DIN`; its index is the result. -/
def execCreate (s : State) : StepResult :=
  attempt s s.createOperands fun c => s.appendRecord "CREATE" c id

/-- `RDCHUNK` (R206): the three fields of a record, of any variant. -/
def execRdChunk (s : State) : StepResult :=
  attempt s s.selectAny fun c =>
    .next ((((s.setDout c.data).setR 0 (c.typeId.setWidth 32)).setR 1 (c.bank.setWidth 32)).setR 2
      (BitVec.ofNat 32 c.data.length)).complete

/-- `WRDATA` (R208): replace the payload of a record, of any variant. -/
def execWrData (s : State) : StepResult :=
  attempt s s.wrDataOperands fun _ => .next (s.setData (s.arg 0) s.din).complete

/-- The first record of type 12 in store order, whatever its bank, with its index (R201, R210). -/
def firstPalette : List Chunk → Option (Nat × Chunk)
  | [] => none
  | c :: cs => if c.typeId = 12#5 then some (0, c) else (firstPalette cs).map fun p => (p.1 + 1, p.2)

/-- IMPORT's checks: the colour count before the store is looked at (R209), then the size of the first palette
(R211). -/
def State.importOperands (s : State) : Except CmdError (Option (Nat × Chunk)) :=
  if s.dinLen.toNat ≠ Config.paletteBytes then .error .paletteSizeMismatch
  else
    match firstPalette s.ch with
    | none => .ok none
    | some (j, c) => do
      checkPaletteSize c.data
      return some (j, c)

/-- `IMPORT` (R210, R212): the 16 colours into the first palette record, bytes 48 and above kept; or a new record of
type 12 and bank 0 when there is none. -/
def execImportColors (s : State) : StepResult :=
  attempt s s.importOperands fun
    | some (j, c) =>
      .next (((s.setData j (s.din ++ c.data.drop Config.paletteBytes)).setR 0 (BitVec.ofNat 32 j)).setR 1 0#32).complete
    | none =>
      s.appendRecord "IMPORT" { typeId := 12#5, bank := 0#3, data := s.din } fun t => t.setR 1 1#32

end Sys2Proof.Machine
end

