-- ==== Sys2Proof/Machine/Text.lean ====
section
/-! DEFINITION. The text functions of the Code codec: lines, header lines, the parse, the format and the header-list
wire format (46_code.md R180 to R189; 30_encoding.md R93). All work on byte sequences (R57). -/

namespace Sys2Proof.Machine

/-- The hyphen (R180). -/
def hyphen : Byte := 0x2D#8

/-- The colon (R180). -/
def colon : Byte := 0x3A#8

/-- The space (R180). -/
def space : Byte := 0x20#8

/-- Whether a byte is white space (R180). -/
def isSpace (b : Byte) : Bool := b ∈ Config.whiteSpace

/-- `spaces(n)` (R9). -/
def spaces (n : Nat) : Bytes := List.replicate n space

/-- `Lines(d)` (R181): split at every `LF`; the empty sequence is one empty line. -/
def textLines : Bytes → List Bytes
  | [] => [[]]
  | b :: bs =>
    if b = Config.lf then [] :: textLines bs
    else
      match textLines bs with
      | [] => [[b]]
      | l :: ls => (b :: l) :: ls

/-- `Join(L)` (R181): the lines with one `LF` between neighbours. -/
def joinLines : List Bytes → Bytes
  | [] => []
  | [l] => l
  | l :: m :: ls => l ++ [Config.lf] ++ joinLines (m :: ls)

/-- `Trim(s)` (R182). -/
def trim (d : Bytes) : Bytes := ((d.dropWhile isSpace).reverse.dropWhile isSpace).reverse

/-- `LStripHyphen(s)` (R182). -/
def stripHyphens (d : Bytes) : Bytes := d.dropWhile (· == hyphen)

/-- Whether a line begins with two hyphens (R183). -/
def isHeaderLine : Bytes → Bool
  | b0 :: b1 :: _ => b0 == hyphen && b1 == hyphen
  | _ => false

/-- One header: key and value. -/
abbrev Header := Bytes × Bytes

/-- `ParseHeaderLine(l)` (R184): split at the first colon; without one the whole line is the key's side. -/
def parseHeaderLine (l : Bytes) : Header :=
  (trim (stripHyphens (l.takeWhile (· != colon))), trim ((l.dropWhile (· != colon)).drop 1))

/-- `Put(H, key, value)` (R185): a repeated key keeps its first position and takes the last value. -/
def putHeader : List Header → Header → List Header
  | [], h => [h]
  | g :: hs, h => if g.1 = h.1 then h :: hs else g :: putHeader hs h

/-- The ordered mapping that a sequence of pairs folds into (R185, R189). -/
def headerMap (hs : List Header) : List Header := hs.foldl putHeader []

/-- `ParseSource(d)` (R185): the longest run of header lines at the start, and the rest joined again. -/
def parseSource (d : Bytes) : List Header × Bytes :=
  (headerMap (((textLines d).takeWhile isHeaderLine).map parseHeaderLine),
    joinLines ((textLines d).dropWhile isHeaderLine))

/-- The greatest key length, 0 for no header (R187). -/
def maxKeyLength (hs : List Header) : Nat := hs.foldr (fun h m => max h.1.length m) 0

/-- One formatted header line without its line break (R187): the padding stands after the colon. -/
def formatHeader (m : Nat) (h : Header) : Bytes :=
  [hyphen, hyphen, space] ++ h.1 ++ [colon] ++ spaces (m - h.1.length) ++ [space] ++ h.2

/-- `Format(H, body)` (R187). -/
def formatSource (hs : List Header) (body : Bytes) : Bytes :=
  (hs.flatMap fun h => formatHeader (maxKeyLength hs) h ++ [Config.lf]) ++ body

/-- The header-list wire format (R93): each key and each value behind its 2-byte length. -/
def encodeHeaders (hs : List Header) : Bytes :=
  hs.flatMap fun h => encodeLe16 h.1.length ++ h.1 ++ encodeLe16 h.2.length ++ h.2

/-- One length-prefixed field of a header list, and the bytes after it; `none` where it would run past the end
(R93). -/
def takeField : Bytes → Option (Bytes × Bytes)
  | lo :: hi :: rest =>
    if rest.length < le16 lo hi then none else some (rest.take (le16 lo hi), rest.drop (le16 lo hi))
  | _ => none

/-- A header list that fills its bytes exactly (R93); `none` where it is malformed. Every entry takes at least 4
bytes, so `fuel` at least the number of bytes never runs out. -/
def decodeHeaders (fuel : Nat) (bs : Bytes) : Option (List Header) :=
  match bs, fuel with
  | [], _ => some []
  | _ :: _, 0 => none
  | b :: bs, fuel + 1 =>
    match takeField (b :: bs) with
    | none => none
    | some (key, afterKey) =>
      match takeField afterKey with
      | none => none
      | some (value, rest) => (decodeHeaders fuel rest).map ((key, value) :: ·)

end Sys2Proof.Machine
end

