-- ==== Sys2Proof/Machine/Code.lean ====
section
/-! DEFINITION. The Code codec's commands: GETSOURCE, SETBODY and SETHEADERS (46_code.md). -/

namespace Sys2Proof.Machine

/-- `GETSOURCE` (R186, R94): the header list and the body in `DOUT`; every payload parses. -/
def execGetSource (s : State) : StepResult :=
  attempt s (s.select .code) fun c =>
    let headers := (parseSource c.data).1
    let body := (parseSource c.data).2
    .next ((((s.setDout (encodeHeaders headers ++ body)).setR 0 (BitVec.ofNat 32 headers.length)).setR 1
      (BitVec.ofNat 32 (encodeHeaders headers).length)).setR 2 (BitVec.ofNat 32 body.length)).complete

/-- SETBODY's operands and the payload they make (R188). -/
def State.setBodyOperands (s : State) : Except CmdError Bytes := do
  let c ← s.select .code
  let d := formatSource (parseSource c.data).1 s.din
  checkPayload d.length
  return d

/-- `SETBODY` (R188): the headers written back in normal form, the body replaced. -/
def execSetBody (s : State) : StepResult :=
  attempt s s.setBodyOperands fun d => .next (s.setData (s.arg 0) d).complete

/-- The mapping read from `DIN` (R189); a malformed list is `InvalidArgument` with the range 0..`DINLEN` (R93). -/
def State.dinHeaders (s : State) : Except CmdError (List Header) :=
  match decodeHeaders s.din.length s.din with
  | none => .error (.invalidArgument argDin 0#32 s.dinLen)
  | some hs => .ok (headerMap hs)

/-- SETHEADERS's operands and the payload they make (R190). -/
def State.setHeadersOperands (s : State) : Except CmdError Bytes := do
  let c ← s.select .code
  let hs ← s.dinHeaders
  let d := formatSource hs (parseSource c.data).2
  checkPayload d.length
  return d

/-- `SETHEADERS` (R190): every header replaced, the body kept verbatim. -/
def execSetHeaders (s : State) : StepResult :=
  attempt s s.setHeadersOperands fun d => .next (s.setData (s.arg 0) d).complete

end Sys2Proof.Machine
end

