-- ==== Sys2Proof/Machine/Container.lean ====
section
/-! DEFINITION. PARSE (40_container_parse.md) and SERIALIZE (41_serialize.md). -/

namespace Sys2Proof.Machine

/-- How the loop of R110 ends. -/
inductive ParseEnd where
  /-- at a frame boundary with no byte left: the staging list and the cursor -/
  | complete (staged : List Chunk) (p : Nat)
  /-- inside the frame that begins at `p` (R113) -/
  | truncated (p : Nat)
deriving DecidableEq, Repr

/-- The loop of R110: `bs` are the bytes of `IN` from `p` on, `staged` the staging list. Every pass consumes at least
4 bytes (R111), so `fuel` at least the number of bytes never runs out. -/
def parseFrames (fuel : Nat) (bs : Bytes) (p : Nat) (staged : List Chunk) : ParseEnd :=
  match bs, fuel with
  | [], _ => .complete staged p
  | _ :: _, 0 => .truncated p
  | b :: bs, fuel + 1 =>
    match takeFrame (b :: bs) with
    | .error _ => .truncated p
    | .ok (f, rest) => parseFrames fuel rest (p + (4 + f.payload.length)) (staged ++ [frameRecord f])

/-- The whole byte stream parsed from offset 0 with an empty staging list (R110). -/
def parseStream (bs : Bytes) : ParseEnd := parseFrames bs.length bs 0 []

/-- `PARSE` (R110, R112, R113): the store is replaced whole, or not at all. `POS` is the one thing a failing PARSE
changes. A stream of more than `MAX_CHUNKS` frames is outside the defined domain (U6, log 4); an `INLEN`
beyond the buffer, U6's other bound, does not occur, because the model's `IN` is of full size (DESIGN CHOICE, log 16). -/
def execParse (s : State) : StepResult :=
  match parseStream s.inBytes with
  | .truncated p => .next ({ s with pos := BitVec.ofNat 32 p }.raise .truncatedInput)
  | .complete staged p =>
    if staged.length ≤ s.params.maxChunks.toNat then
      .next ({ s with ch := staged, pos := BitVec.ofNat 32 p }.setR 0 (BitVec.ofNat 32 staged.length)).complete
    else .refused (.overCapacity "PARSE")

/-- The header byte SERIALIZE writes (R76): `(bank << BANK_SHIFT) + type_id`. -/
def headerByte (shift : Config.BankShift) (c : Chunk) : Byte :=
  BitVec.ofNat 8 (c.bank.toNat * 2 ^ shift.amount + c.typeId.toNat)

/-- The frame SERIALIZE writes for a record (R125): the payload is stripped first and the length taken after
(R126). -/
def serializeChunk (params : Config.Params) (fill : Byte) (c : Chunk) : Bytes :=
  [headerByte params.bankShift c] ++ encodeLe16 (stripTZ c.data).length ++ [fill] ++ stripTZ c.data

/-- The container byte stream of a store (R125). -/
def serializeStore (params : Config.Params) (fill : Byte) (cs : List Chunk) : Bytes :=
  cs.flatMap (serializeChunk params fill)

/-- `SERIALIZE` (R125, R129): only `OUT`, `OUTLEN` and `R[0]` change. It raises no error; a stream of 2^32 bytes or
more is outside the defined domain (R132, U6, log 4). -/
def execSerialize (s : State) : StepResult :=
  if (serializeStore s.params s.cfgFill s.ch).length < 2 ^ 32 then
    .next ((s.setOut (serializeStore s.params s.cfgFill s.ch)).setR 0
      (BitVec.ofNat 32 (serializeStore s.params s.cfgFill s.ch).length)).complete
  else .refused (.overCapacity "SERIALIZE")

end Sys2Proof.Machine
end

