-- ==== Sys2Proof/Machine/Frames.lean ====
section
/-! DEFINITION. The 32 frame decodings (40_container_parse.md, part 2). Each is one pass of PARSE's loop for a frame
of its type id (R110, R111): the record is appended to the staging list and the cursor advances. The variant the
record dispatches to is `variant` of its type id (R82); PARSE accepts every type id (R116, R124). -/

namespace Sys2Proof.Machine

/-- `CHUNK.RSV0`, type id 0, variant `GENERIC`, not in the registry (R124). -/
def execChunkRsv0 (bank : BitVec 3) (reserved : Byte) (payload : Bytes) (s : State) : StepResult :=
  .next (s.passFrame ⟨0#5, bank, reserved, payload⟩)

/-- `CHUNK.TILES`, type id 1, variant `TILES` (R117). -/
def execChunkTiles (bank : BitVec 3) (reserved : Byte) (payload : Bytes) (s : State) : StepResult :=
  .next (s.passFrame ⟨1#5, bank, reserved, payload⟩)

/-- `CHUNK.SPRITES`, type id 2, variant `SPRITES` (R118). -/
def execChunkSprites (bank : BitVec 3) (reserved : Byte) (payload : Bytes) (s : State) : StepResult :=
  .next (s.passFrame ⟨2#5, bank, reserved, payload⟩)

/-- `CHUNK.COVER_DEP`, type id 3, variant `GENERIC` (R123). -/
def execChunkCoverDep (bank : BitVec 3) (reserved : Byte) (payload : Bytes) (s : State) : StepResult :=
  .next (s.passFrame ⟨3#5, bank, reserved, payload⟩)

/-- `CHUNK.MAP`, type id 4, variant `MAP` (R119). -/
def execChunkMap (bank : BitVec 3) (reserved : Byte) (payload : Bytes) (s : State) : StepResult :=
  .next (s.passFrame ⟨4#5, bank, reserved, payload⟩)

/-- `CHUNK.CODE`, type id 5, variant `CODE` (R120). -/
def execChunkCode (bank : BitVec 3) (reserved : Byte) (payload : Bytes) (s : State) : StepResult :=
  .next (s.passFrame ⟨5#5, bank, reserved, payload⟩)

/-- `CHUNK.FLAGS`, type id 6, variant `FLAGS` (R121). -/
def execChunkFlags (bank : BitVec 3) (reserved : Byte) (payload : Bytes) (s : State) : StepResult :=
  .next (s.passFrame ⟨6#5, bank, reserved, payload⟩)

/-- `CHUNK.RSV7`, type id 7, variant `GENERIC`, not in the registry (R124). -/
def execChunkRsv7 (bank : BitVec 3) (reserved : Byte) (payload : Bytes) (s : State) : StepResult :=
  .next (s.passFrame ⟨7#5, bank, reserved, payload⟩)

/-- `CHUNK.RSV8`, type id 8, variant `GENERIC`, not in the registry (R124). -/
def execChunkRsv8 (bank : BitVec 3) (reserved : Byte) (payload : Bytes) (s : State) : StepResult :=
  .next (s.passFrame ⟨8#5, bank, reserved, payload⟩)

/-- `CHUNK.SAMPLES`, type id 9, variant `GENERIC` (R123). -/
def execChunkSamples (bank : BitVec 3) (reserved : Byte) (payload : Bytes) (s : State) : StepResult :=
  .next (s.passFrame ⟨9#5, bank, reserved, payload⟩)

/-- `CHUNK.WAVEFORM`, type id 10, variant `GENERIC` (R123). -/
def execChunkWaveform (bank : BitVec 3) (reserved : Byte) (payload : Bytes) (s : State) : StepResult :=
  .next (s.passFrame ⟨10#5, bank, reserved, payload⟩)

/-- `CHUNK.RSV11`, type id 11, variant `GENERIC`, not in the registry (R124). -/
def execChunkRsv11 (bank : BitVec 3) (reserved : Byte) (payload : Bytes) (s : State) : StepResult :=
  .next (s.passFrame ⟨11#5, bank, reserved, payload⟩)

/-- `CHUNK.PALETTE`, type id 12, variant `PALETTE` (R122). -/
def execChunkPalette (bank : BitVec 3) (reserved : Byte) (payload : Bytes) (s : State) : StepResult :=
  .next (s.passFrame ⟨12#5, bank, reserved, payload⟩)

/-- `CHUNK.PATTERNS_DEP`, type id 13, variant `GENERIC` (R123). -/
def execChunkPatternsDep (bank : BitVec 3) (reserved : Byte) (payload : Bytes) (s : State) : StepResult :=
  .next (s.passFrame ⟨13#5, bank, reserved, payload⟩)

/-- `CHUNK.MUSIC`, type id 14, variant `GENERIC` (R123). -/
def execChunkMusic (bank : BitVec 3) (reserved : Byte) (payload : Bytes) (s : State) : StepResult :=
  .next (s.passFrame ⟨14#5, bank, reserved, payload⟩)

/-- `CHUNK.PATTERNS`, type id 15, variant `GENERIC` (R123). -/
def execChunkPatterns (bank : BitVec 3) (reserved : Byte) (payload : Bytes) (s : State) : StepResult :=
  .next (s.passFrame ⟨15#5, bank, reserved, payload⟩)

/-- `CHUNK.ZCODE_DEP`, type id 16, variant `GENERIC` (R123). -/
def execChunkZcodeDep (bank : BitVec 3) (reserved : Byte) (payload : Bytes) (s : State) : StepResult :=
  .next (s.passFrame ⟨16#5, bank, reserved, payload⟩)

/-- `CHUNK.DEFAULT`, type id 17, variant `GENERIC` (R123). -/
def execChunkDefault (bank : BitVec 3) (reserved : Byte) (payload : Bytes) (s : State) : StepResult :=
  .next (s.passFrame ⟨17#5, bank, reserved, payload⟩)

/-- `CHUNK.SCREEN`, type id 18, variant `GENERIC` (R123). -/
def execChunkScreen (bank : BitVec 3) (reserved : Byte) (payload : Bytes) (s : State) : StepResult :=
  .next (s.passFrame ⟨18#5, bank, reserved, payload⟩)

/-- `CHUNK.BINARY`, type id 19, variant `GENERIC` (R123). -/
def execChunkBinary (bank : BitVec 3) (reserved : Byte) (payload : Bytes) (s : State) : StepResult :=
  .next (s.passFrame ⟨19#5, bank, reserved, payload⟩)

/-- `CHUNK.RSV20`, type id 20, variant `GENERIC`, not in the registry (R124). -/
def execChunkRsv20 (bank : BitVec 3) (reserved : Byte) (payload : Bytes) (s : State) : StepResult :=
  .next (s.passFrame ⟨20#5, bank, reserved, payload⟩)

/-- `CHUNK.RSV21`, type id 21, variant `GENERIC`, not in the registry (R124). -/
def execChunkRsv21 (bank : BitVec 3) (reserved : Byte) (payload : Bytes) (s : State) : StepResult :=
  .next (s.passFrame ⟨21#5, bank, reserved, payload⟩)

/-- `CHUNK.RSV22`, type id 22, variant `GENERIC`, not in the registry (R124). -/
def execChunkRsv22 (bank : BitVec 3) (reserved : Byte) (payload : Bytes) (s : State) : StepResult :=
  .next (s.passFrame ⟨22#5, bank, reserved, payload⟩)

/-- `CHUNK.RSV23`, type id 23, variant `GENERIC`, not in the registry (R124). -/
def execChunkRsv23 (bank : BitVec 3) (reserved : Byte) (payload : Bytes) (s : State) : StepResult :=
  .next (s.passFrame ⟨23#5, bank, reserved, payload⟩)

/-- `CHUNK.RSV24`, type id 24, variant `GENERIC`, not in the registry (R124). -/
def execChunkRsv24 (bank : BitVec 3) (reserved : Byte) (payload : Bytes) (s : State) : StepResult :=
  .next (s.passFrame ⟨24#5, bank, reserved, payload⟩)

/-- `CHUNK.RSV25`, type id 25, variant `GENERIC`, not in the registry (R124). -/
def execChunkRsv25 (bank : BitVec 3) (reserved : Byte) (payload : Bytes) (s : State) : StepResult :=
  .next (s.passFrame ⟨25#5, bank, reserved, payload⟩)

/-- `CHUNK.RSV26`, type id 26, variant `GENERIC`, not in the registry (R124). -/
def execChunkRsv26 (bank : BitVec 3) (reserved : Byte) (payload : Bytes) (s : State) : StepResult :=
  .next (s.passFrame ⟨26#5, bank, reserved, payload⟩)

/-- `CHUNK.RSV27`, type id 27, variant `GENERIC`, not in the registry (R124). -/
def execChunkRsv27 (bank : BitVec 3) (reserved : Byte) (payload : Bytes) (s : State) : StepResult :=
  .next (s.passFrame ⟨27#5, bank, reserved, payload⟩)

/-- `CHUNK.RSV28`, type id 28, variant `GENERIC`, not in the registry (R124). -/
def execChunkRsv28 (bank : BitVec 3) (reserved : Byte) (payload : Bytes) (s : State) : StepResult :=
  .next (s.passFrame ⟨28#5, bank, reserved, payload⟩)

/-- `CHUNK.RSV29`, type id 29, variant `GENERIC`, not in the registry (R124). -/
def execChunkRsv29 (bank : BitVec 3) (reserved : Byte) (payload : Bytes) (s : State) : StepResult :=
  .next (s.passFrame ⟨29#5, bank, reserved, payload⟩)

/-- `CHUNK.RSV30`, type id 30, variant `GENERIC`, not in the registry (R124). -/
def execChunkRsv30 (bank : BitVec 3) (reserved : Byte) (payload : Bytes) (s : State) : StepResult :=
  .next (s.passFrame ⟨30#5, bank, reserved, payload⟩)

/-- `CHUNK.RSV31`, type id 31, variant `GENERIC`, not in the registry (R124). -/
def execChunkRsv31 (bank : BitVec 3) (reserved : Byte) (payload : Bytes) (s : State) : StepResult :=
  .next (s.passFrame ⟨31#5, bank, reserved, payload⟩)

end Sys2Proof.Machine
end

