-- ==== Sys2Proof/Machine/Palette.lean ====
section
/-! DEFINITION. The Palette codec: SETCOLOR and GETCOLOR (43_palette.md). -/

namespace Sys2Proof.Machine

/-- The byte address of channel `c` of a colour (R55, R150). -/
def colorByte (id c : Nat) : Nat := 3 * id + c

/-- A channel written where it is supplied, kept where it is not (R153). -/
def putChannel (d : Bytes) (supplied : Bool) (a v : Nat) : Bytes :=
  if supplied then d.set a (BitVec.ofNat 8 v) else d

/-- `SETCOLOR` (R153): the supplied channels of one colour; the payload length never changes. -/
def execSetColor (s : State) : StepResult :=
  attempt s s.setColorOperands fun c =>
    let d0 := putChannel c.data (s.channelSupplied 0) (colorByte (s.arg 1) 0) (s.arg 3)
    let d1 := putChannel d0 (s.channelSupplied 1) (colorByte (s.arg 1) 1) (s.arg 4)
    let d2 := putChannel d1 (s.channelSupplied 2) (colorByte (s.arg 1) 2) (s.arg 5)
    .next (s.setData (s.arg 0) d2).complete

/-- `GETCOLOR` (R152): the three channels of one colour; `R[3]` is not written. -/
def execGetColor (s : State) : StepResult :=
  attempt s s.getColorOperands fun c =>
    .next (((s.setR 0 ((byteAt c.data (colorByte (s.arg 1) 0)).setWidth 32)).setR 1
      ((byteAt c.data (colorByte (s.arg 1) 1)).setWidth 32)).setR 2
      ((byteAt c.data (colorByte (s.arg 1) 2)).setWidth 32)).complete

end Sys2Proof.Machine
end

