-- ==== Sys2Proof/Machine/Pixel.lean ====
section
/-! DEFINITION. The Tiles and Sprites codec: SETPIXEL and GETPIXEL (42_tiles_sprites.md). -/

namespace Sys2Proof.Machine

/-- A byte with one nibble replaced, the other kept (R137, R140). -/
def nibbleSet (b : Byte) (odd : Bool) (c : Nat) : Byte :=
  if odd then (b &&& 0x0F#8) ||| BitVec.ofNat 8 (c <<< 4) else (b &&& 0xF0#8) ||| BitVec.ofNat 8 c

/-- One nibble of a byte (R138). -/
def nibbleGet (b : Byte) (odd : Bool) : Byte := if odd then b >>> 4 else b &&& 0x0F#8

/-- `SETPIXEL` (R137): grow the payload up to the byte, then replace the pixel's nibble. -/
def execSetPixel (s : State) : StepResult :=
  attempt s s.setPixelOperands fun t =>
    .next (s.setData (s.arg 0)
      (growSet t.chunk.data t.addr (nibbleSet (byteAt t.chunk.data t.addr) t.odd (s.arg 4)))).complete

/-- `GETPIXEL` (R138): a pixel beyond the end reads 0 and nothing grows. -/
def execGetPixel (s : State) : StepResult :=
  attempt s s.pixelAddr fun t =>
    .next (s.setR 0 ((nibbleGet (byteAt t.chunk.data t.addr) t.odd).setWidth 32)).complete

end Sys2Proof.Machine
end

