-- ==== Sys2Proof/Machine/SpriteFlags.lean ====
section
/-! DEFINITION. The Flags codec: SETFLAGS and GETFLAGS (45_flags.md). -/

namespace Sys2Proof.Machine

/-- The stored byte of a boolean list of `count` items given as bits: positions `count` and above are 0 (R171). -/
def packFlags (bits count : Nat) : Byte := BitVec.ofNat 8 (bits &&& ((1 <<< count) - 1))

/-- `SETFLAGS` (R171): grow the payload up to the sprite's byte, then overwrite it whole. -/
def execSetFlags (s : State) : StepResult :=
  attempt s s.setFlagsOperands fun c =>
    .next (s.setData (s.arg 0) (growSet c.data (s.arg 1) (packFlags (s.arg 3) (s.arg 2)))).complete

/-- `GETFLAGS` (R172): a sprite beyond the end reads eight false flags and nothing grows. -/
def execGetFlags (s : State) : StepResult :=
  attempt s s.getFlagsOperands fun c =>
    .next (s.setR 0 ((byteAt c.data (s.arg 1)).setWidth 32)).complete

end Sys2Proof.Machine
end

