-- ==== Sys2Proof/Machine/TileMap.lean ====
section
/-! DEFINITION. The Map codec: SETTILE and GETTILE (44_map.md). -/

namespace Sys2Proof.Machine

/-- `SETTILE` (R161): grow the payload up to the cell, then overwrite its byte. -/
def execSetTile (s : State) : StepResult :=
  attempt s s.setTileOperands fun c =>
    .next (s.setData (s.arg 0)
      (growSet c.data (mapByte (s.arg 1) (s.arg 2)) (BitVec.ofNat 8 (s.arg 3)))).complete

/-- `GETTILE` (R162): a cell beyond the end reads 0 and nothing grows. -/
def execGetTile (s : State) : StepResult :=
  attempt s s.getTileOperands fun c =>
    .next (s.setR 0 ((byteAt c.data (mapByte (s.arg 1) (s.arg 2))).setWidth 32)).complete

end Sys2Proof.Machine
end

