-- ==== Sys2Proof/Machine/Dispatch.lean ====
section
/-! DEFINITION. The dispatch: one arm per instruction, each one call of its meaning. -/

namespace Sys2Proof.Machine

def exec (i : Instr) (s : State) : Host.Outcome State Fault Refusal :=
  match i with
  | .chunkRsv0 bank reserved payload => Sys2Proof.Machine.execChunkRsv0 bank reserved payload s
  | .chunkTiles bank reserved payload => Sys2Proof.Machine.execChunkTiles bank reserved payload s
  | .chunkSprites bank reserved payload => Sys2Proof.Machine.execChunkSprites bank reserved payload s
  | .chunkCoverDep bank reserved payload => Sys2Proof.Machine.execChunkCoverDep bank reserved payload s
  | .chunkMap bank reserved payload => Sys2Proof.Machine.execChunkMap bank reserved payload s
  | .chunkCode bank reserved payload => Sys2Proof.Machine.execChunkCode bank reserved payload s
  | .chunkFlags bank reserved payload => Sys2Proof.Machine.execChunkFlags bank reserved payload s
  | .chunkRsv7 bank reserved payload => Sys2Proof.Machine.execChunkRsv7 bank reserved payload s
  | .chunkRsv8 bank reserved payload => Sys2Proof.Machine.execChunkRsv8 bank reserved payload s
  | .chunkSamples bank reserved payload => Sys2Proof.Machine.execChunkSamples bank reserved payload s
  | .chunkWaveform bank reserved payload => Sys2Proof.Machine.execChunkWaveform bank reserved payload s
  | .chunkRsv11 bank reserved payload => Sys2Proof.Machine.execChunkRsv11 bank reserved payload s
  | .chunkPalette bank reserved payload => Sys2Proof.Machine.execChunkPalette bank reserved payload s
  | .chunkPatternsDep bank reserved payload => Sys2Proof.Machine.execChunkPatternsDep bank reserved payload s
  | .chunkMusic bank reserved payload => Sys2Proof.Machine.execChunkMusic bank reserved payload s
  | .chunkPatterns bank reserved payload => Sys2Proof.Machine.execChunkPatterns bank reserved payload s
  | .chunkZcodeDep bank reserved payload => Sys2Proof.Machine.execChunkZcodeDep bank reserved payload s
  | .chunkDefault bank reserved payload => Sys2Proof.Machine.execChunkDefault bank reserved payload s
  | .chunkScreen bank reserved payload => Sys2Proof.Machine.execChunkScreen bank reserved payload s
  | .chunkBinary bank reserved payload => Sys2Proof.Machine.execChunkBinary bank reserved payload s
  | .chunkRsv20 bank reserved payload => Sys2Proof.Machine.execChunkRsv20 bank reserved payload s
  | .chunkRsv21 bank reserved payload => Sys2Proof.Machine.execChunkRsv21 bank reserved payload s
  | .chunkRsv22 bank reserved payload => Sys2Proof.Machine.execChunkRsv22 bank reserved payload s
  | .chunkRsv23 bank reserved payload => Sys2Proof.Machine.execChunkRsv23 bank reserved payload s
  | .chunkRsv24 bank reserved payload => Sys2Proof.Machine.execChunkRsv24 bank reserved payload s
  | .chunkRsv25 bank reserved payload => Sys2Proof.Machine.execChunkRsv25 bank reserved payload s
  | .chunkRsv26 bank reserved payload => Sys2Proof.Machine.execChunkRsv26 bank reserved payload s
  | .chunkRsv27 bank reserved payload => Sys2Proof.Machine.execChunkRsv27 bank reserved payload s
  | .chunkRsv28 bank reserved payload => Sys2Proof.Machine.execChunkRsv28 bank reserved payload s
  | .chunkRsv29 bank reserved payload => Sys2Proof.Machine.execChunkRsv29 bank reserved payload s
  | .chunkRsv30 bank reserved payload => Sys2Proof.Machine.execChunkRsv30 bank reserved payload s
  | .chunkRsv31 bank reserved payload => Sys2Proof.Machine.execChunkRsv31 bank reserved payload s
  | .parse => Sys2Proof.Machine.execParse s
  | .serialize => Sys2Proof.Machine.execSerialize s
  | .setPixel => Sys2Proof.Machine.execSetPixel s
  | .getPixel => Sys2Proof.Machine.execGetPixel s
  | .setColor => Sys2Proof.Machine.execSetColor s
  | .getColor => Sys2Proof.Machine.execGetColor s
  | .setTile => Sys2Proof.Machine.execSetTile s
  | .getTile => Sys2Proof.Machine.execGetTile s
  | .setFlags => Sys2Proof.Machine.execSetFlags s
  | .getFlags => Sys2Proof.Machine.execGetFlags s
  | .getSource => Sys2Proof.Machine.execGetSource s
  | .setBody => Sys2Proof.Machine.execSetBody s
  | .setHeaders => Sys2Proof.Machine.execSetHeaders s
  | .lookup => Sys2Proof.Machine.execLookup s
  | .hasType => Sys2Proof.Machine.execHasType s
  | .create => Sys2Proof.Machine.execCreate s
  | .rdChunk => Sys2Proof.Machine.execRdChunk s
  | .wrData => Sys2Proof.Machine.execWrData s
  | .importColors => Sys2Proof.Machine.execImportColors s

end Sys2Proof.Machine
end

