-- ==== Sys2Proof/Machine/Flags.lean ====
section
/-! DEFINITION. The one status flag, `EOI` (R28). No command writes a flag; the flag is a function of `POS` and
`INLEN`. -/

namespace Sys2Proof.Machine

/-- `EOI`: the cursor's end-of-input signal, `POS == INLEN` (R28). -/
def State.eoi (s : State) : Bool := s.pos == s.inLen

/-- The `FLAGS` register: bit 0 is `EOI`, the other bits read as 0 (R28, R29). -/
def State.flagsWord (s : State) : Word := if s.eoi then 1#32 else 0#32

/-- `CHN`, the read-only view of the number of records (R33). -/
def State.chn (s : State) : Word := BitVec.ofNat 32 s.ch.length

end Sys2Proof.Machine
end

