-- ==== Sys2Proof/Machine/Fetch.lean ====
section
/-! DEFINITION. Fetching: a command from `CMD` (R86), a frame from `IN` at `POS` (R27, R111); and placing a table word
where the next fetch finds it. -/

namespace Sys2Proof.Machine

/-- The command whose opcode stands in `CMD` (R30, R86). -/
def State.fetchCommand (s : State) : Except Reject Instr :=
  match decode .command [s.cmd] with
  | .ok (i, _) => .ok i
  | .error e => .error e

/-- The bytes of `IN` from `POS` to `INLEN` (R27). -/
def State.streamBytes (s : State) : Bytes := Mem.readRange s.inBuf s.pos.toNat (s.inLen.toNat - s.pos.toNat)

/-- The frame at `POS` (R111). -/
def State.fetchFrame (s : State) : Except Reject Instr :=
  match decode .frame s.streamBytes with
  | .ok (i, _) => .ok i
  | .error e => .error e

/-- The doorbell is answered: the command is taken and no longer pending (R30). -/
def State.accept (s : State) : State := { s with seq := .idle }

/-- What a reserved opcode does (R89): `InvalidArgument`, `ERRARG` = 0xFF, bounds 0. -/
def State.raiseOpcode (s : State) : State := s.raise (.invalidArgument argOpcode 0#32 0#32)

/-- The state in which PARSE, taken frame by frame, begins (R27: "PARSE sets it to 0 when it starts"; R36, log 1). -/
def State.startParse (s : State) : State := { s with pos := 0#32, staging := [], seq := .parsing }

/-- An opcode placed in `CMD`, its command pending. -/
def State.placeCommand (s : State) (op : Byte) : State := { s with cmd := op, seq := .issued }

/-- Bytes placed in `IN` at `POS`, inside a PARSE; `INLEN` is raised where it does not reach their end. -/
def State.placeFrame (s : State) (bs : Bytes) : State :=
  { s with inBuf := Mem.writeBytes s.inBuf s.pos.toNat bs,
           inLen := BitVec.ofNat 32 (max s.inLen.toNat (s.pos.toNat + bs.length)),
           seq := .parsing }

/-- The instruction of a table word placed where the next step fetches it (log 2, log 9). -/
def State.placeTableWord (s : State) (nbits w : Nat) : State :=
  match tableInstr nbits w with
  | .error _ => s.placeCommand (BitVec.ofNat 8 w)
  | .ok i =>
    match i.port with
    | .command => s.placeCommand (BitVec.ofNat 8 w)
    | .frame => s.placeFrame (tableFrameBytes w)

end Sys2Proof.Machine
end

