-- ==== Sys2Proof/Machine/HostPort.lean ====
section
/-! DEFINITION. The host's accesses, made between commands (R29, R38, R50, R61, R251). -/

namespace Sys2Proof.Machine

/-- The register at an offset of the window (R29). -/
def regAt (offset : Nat) : Option Reg :=
  match offset with
  | 0x00 => some .cmd
  | 0x04 => some .err
  | 0x08 => some .errArg
  | 0x0C => some .errLo
  | 0x10 => some .errHi
  | 0x14 => some .chn
  | 0x18 => some .pos
  | 0x1C => some .flags
  | 0x20 => some .cfgFill
  | 0x24 => some .inLen
  | 0x28 => some .outLen
  | 0x2C => some .dinLen
  | 0x30 => some .doutLen
  | 0x40 => some (.a 0)
  | 0x44 => some (.a 1)
  | 0x48 => some (.a 2)
  | 0x4C => some (.a 3)
  | 0x50 => some (.a 4)
  | 0x54 => some (.a 5)
  | 0x60 => some (.r 0)
  | 0x64 => some (.r 1)
  | 0x68 => some (.r 2)
  | 0x6C => some (.r 3)
  | _ => none

/-- The state after a read that returns `v` (R61: nothing of the block changes). -/
def State.answer (s : State) (v : Word) : State := { s with bus := v }

/-- The state after a read whose value is open (U9, U16): the next free value (log 6). -/
def State.answerOpen (s : State) : State :=
  { s with bus := (Config.openRead s.freeCount).setWidth 32, freeCount := s.freeCount + 1 }

/-- A register read: fields narrower than 32 bits read as 0 above their width (R29). Reading `CMD` has no meaning
(R30, U16): its value is free. -/
def State.readReg (s : State) : Reg → State
  | .cmd => s.answerOpen
  | .err => s.answer (s.err.setWidth 32)
  | .errArg => s.answer (s.errArg.setWidth 32)
  | .errLo => s.answer s.errLo
  | .errHi => s.answer s.errHi
  | .chn => s.answer s.chn
  | .pos => s.answer s.pos
  | .flags => s.answer s.flagsWord
  | .cfgFill => s.answer (s.cfgFill.setWidth 32)
  | .inLen => s.answer s.inLen
  | .outLen => s.answer s.outLen
  | .dinLen => s.answer s.dinLen
  | .doutLen => s.answer s.doutLen
  | .a i => s.answer s.a[i]
  | .r i => s.answer s.r[i]

/-- A register write: bits above a field's width are ignored (R29). Writing `CMD` issues the command (R30). A write to
a register whose access is read only has no meaning in the spec and is refused (log 7). -/
def State.writeReg (s : State) (offset : Nat) (v : Word) : Reg → StepResult
  | .cmd => .next { s with cmd := v.setWidth 8, seq := .issued }
  | .cfgFill => .next { s with cfgFill := v.setWidth 8 }
  | .inLen => .next { s with inLen := v }
  | .dinLen => .next { s with dinLen := v }
  | .a i => .next { s with a := s.a.set i v }
  | .err => .refused (.readOnlyRegister offset)
  | .errArg => .refused (.readOnlyRegister offset)
  | .errLo => .refused (.readOnlyRegister offset)
  | .errHi => .refused (.readOnlyRegister offset)
  | .chn => .refused (.readOnlyRegister offset)
  | .pos => .refused (.readOnlyRegister offset)
  | .flags => .refused (.readOnlyRegister offset)
  | .outLen => .refused (.readOnlyRegister offset)
  | .doutLen => .refused (.readOnlyRegister offset)
  | .r _ => .refused (.readOnlyRegister offset)

/-- A read of a byte of a result buffer: below the length register its byte, else an open value (R34, U9). -/
def State.readBuf (s : State) (m : Mem) (len addr : Word) : State :=
  if addr < len then s.answer ((Mem.read m addr.toNat).setWidth 32) else s.answerOpen

/-- Reset (R250, R251): one, total. The parameters are constants of the block (R35); the host's list and the free
values already drawn are not the block's. -/
def State.pulseReset (s : State) : State :=
  { State.reset with params := s.params, host := s.host, freeCount := s.freeCount }

/-- One access of the host. A buffer write lands in its space; address 2^32 - 1 is in no space (R50, log 8). -/
def State.access (s : State) : HostAccess → StepResult
  | .writeReg offset v =>
    match regAt offset with
    | none => .refused (.noRegister offset)
    | some reg => s.writeReg offset v reg
  | .readReg offset =>
    match regAt offset with
    | none => .refused (.noRegister offset)
    | some reg => .next (s.readReg reg)
  | .writeIn addr b =>
    if addr.toNat < Config.maxSpace then .next { s with inBuf := Mem.write s.inBuf addr.toNat b }
    else .fault (.outsideSpace addr.toNat)
  | .writeDin addr b =>
    if addr.toNat < Config.maxSpace then .next { s with dinBuf := Mem.write s.dinBuf addr.toNat b }
    else .fault (.outsideSpace addr.toNat)
  | .readOut addr => .next (s.readBuf s.outBuf s.outLen addr)
  | .readDout addr => .next (s.readBuf s.doutBuf s.doutLen addr)
  | .reset => .next s.pulseReset

/-- Between commands the next access of the host is made; with none left the block waits (R250). -/
def State.hostStep (s : State) : StepResult :=
  match s.host with
  | [] => .next s
  | x :: rest => { s with host := rest }.access x

/-! ## The host's sequences (R95) -/

/-- Buffer writes of consecutive bytes from address `a` on. -/
def fillFrom (write : Word → Byte → HostAccess) (a : Nat) : Bytes → List HostAccess
  | [] => []
  | b :: bs => write (BitVec.ofNat 32 a) b :: fillFrom write (a + 1) bs

/-- `IN <- bytes` (R95). -/
def hostFillIn (bs : Bytes) : List HostAccess :=
  fillFrom .writeIn 0 bs ++ [.writeReg 0x24 (BitVec.ofNat 32 bs.length)]

/-- `DIN <- bytes` (R95). -/
def hostFillDin (bs : Bytes) : List HostAccess :=
  fillFrom .writeDin 0 bs ++ [.writeReg 0x2C (BitVec.ofNat 32 bs.length)]

/-- Writes of `A[i]`, `A[i+1]`, … (R29). -/
def hostOperands (i : Nat) : List Word → List HostAccess
  | [] => []
  | v :: vs => .writeReg (0x40 + 4 * i) v :: hostOperands (i + 1) vs

/-- `MNEMONIC op0, op1, …` (R95): the operand writes, then the opcode to `CMD`. -/
def hostCommand (op : Byte) (operands : List Word) : List HostAccess :=
  hostOperands 0 operands ++ [.writeReg 0x00 (op.setWidth 32)]

/-- The mask of `SETCOLOR` with omitted channels (R97 (b)): bit 0 for `r`, bit 1 for `g`, bit 2 for `b`. -/
def colorMask (r g b : Option Word) : Word :=
  (if r.isSome then 1#32 else 0#32) ||| (if g.isSome then 2#32 else 0#32) ||| (if b.isSome then 4#32 else 0#32)

/-- The operands of `SETCOLOR k, id, r, g, b` with `none` for an omitted channel, whose register is written 0
(R97 (b)). A supplied channel is any 32-bit operand (R88, R95): the range 0..255 is the block's check (R153), not the
assembler's. -/
def setColorWords (k id : Word) (r g b : Option Word) : List Word :=
  [k, id, colorMask r g b, r.getD 0#32, g.getD 0#32, b.getD 0#32]

/-- The sum of `fi << i` over a boolean list (R97 (c)). -/
def flagBits : List Bool → Nat
  | [] => 0
  | f :: fs => f.toNat + 2 * flagBits fs

/-- The operands of `SETFLAGS k, spriteId, [f0, f1, …]` (R97 (c)). -/
def setFlagsWords (k sprite : Word) (fs : List Bool) : List Word :=
  [k, sprite, BitVec.ofNat 32 fs.length, BitVec.ofNat 32 (flagBits fs)]

end Sys2Proof.Machine
end

