-- ==== Sys2Proof/Machine/Step.lean ====
section
/-! DEFINITION. One step of the machine. -/

namespace Sys2Proof.Machine

/-- One step (R30, R66, R111). Idle: the host's next access. Issued: the command in `CMD` runs to completion, or, if
the opcode is reserved, raises (R89). Parsing: one pass of PARSE's loop: commit at the end of input, else the frame at
`POS`, else `TruncatedInput` (R110). -/
def step (s : State) : Host.Outcome State Fault Refusal :=
  match s.seq with
  | .idle => s.hostStep
  | .issued =>
    match s.fetchCommand with
    | .ok i => exec i s.accept
    | .error _ => .next s.accept.raiseOpcode
  | .parsing =>
    if s.eoi then s.commitParse
    else
      match s.fetchFrame with
      | .ok i => exec i s
      | .error _ => .next s.truncateParse

/-- `s` with the instruction of a table word placed where `step` fetches its next instruction: a command in `CMD`,
pending; a frame in `IN` at `POS`, inside a PARSE (log 2, log 9). -/
def State.withFetchWord (s : State) (nbits w : Nat) : State := s.placeTableWord nbits w

end Sys2Proof.Machine
end

