-- ==== Sys2Proof/Safety.lean ====
section
/-! DEFINITION. What counts as a good state, and the views of a state that statements use. -/

namespace Sys2Proof.Machine

/-- Every record of a store has a payload that fits 16 bits (R23; the type id and bank bounds are in the types). -/
def storeFits (cs : List Chunk) : Prop := ∀ c ∈ cs, c.data.length ≤ Config.maxPayload

/-- Every cell of a space lies below an address. -/
def Mem.below (m : Mem) (n : Nat) : Prop := ∀ c ∈ m, c.1 < n

/-- The invariant of the machine: the memories are canonical and inside their spaces (R34, R50), every record fits
(R23), the store holds at most `MAX_CHUNKS` records (R6, U6), the error registers hold a value that R221 and R227 give,
and the cursor and the staging list are as PARSE keeps them (R27, R36). -/
structure State.Inv (s : State) : Prop where
  inWf : Mem.wf s.inBuf
  outWf : Mem.wf s.outBuf
  dinWf : Mem.wf s.dinBuf
  doutWf : Mem.wf s.doutBuf
  inSpace : Mem.below s.inBuf Config.maxSpace
  dinSpace : Mem.below s.dinBuf Config.maxSpace
  outSpace : Mem.below s.outBuf s.outLen.toNat
  doutSpace : Mem.below s.doutBuf s.doutLen.toNat
  store : storeFits s.ch
  staged : storeFits s.staging
  capacity : s.ch.length ≤ s.params.maxChunks.toNat
  cursor : s.seq = .parsing → s.pos.toNat ≤ s.inLen.toNat
  settled : s.seq ≠ .parsing → s.staging = []
  errCode : s.err.toNat ≤ 5
  errInfo : s.err ≠ 1#8 → s.errArg = 0#8 ∧ s.errLo = 0#32 ∧ s.errHi = 0#32

/-- The payload of record `k`, if there is one: the space `PAY(k)` (R50). -/
def State.payload (s : State) (k : Nat) : Option Bytes := s.ch[k]?.map (·.data)

/-- One byte of `PAY(k)`: 0 beyond the payload and where there is no record (R63). -/
def State.payByte (s : State) (k a : Nat) : Byte := byteAt ((s.payload k).getD []) a

/-- A state with only the error registers' values taken from another: what a failing command may change (R226). -/
def State.withErrorsOf (s t : State) : State :=
  { s with err := t.err, errArg := t.errArg, errLo := t.errLo, errHi := t.errHi }

/-- A state whose error registers report `InvalidArgument` for an argument and its range (R221, R227). -/
def State.withInvalid (s : State) (arg : Byte) (lo hi : Nat) : State :=
  { s with err := 1#8, errArg := arg, errLo := BitVec.ofNat 32 lo, errHi := BitVec.ofNat 32 hi }

/-- A state whose error registers report a kind that names no argument, or, with code 0, no error (R221, R227). -/
def State.withError (s : State) (code : Byte) : State :=
  { s with err := code, errArg := 0#8, errLo := 0#32, errHi := 0#32 }

/-- How a codec command fails on its selector (R16, R207): `A[0]` not below `CHN`, or a record whose type id is not
one of the accepted ones, which make up the range `lo..hi`. -/
def failsSelect (i : Instr) (s : State) (accepted : List Nat) (lo hi : Nat) : Prop :=
  (s.ch.length ≤ s.arg 0 → exec i s = .next (s.withInvalid 0x00#8 0 (max s.ch.length 1 - 1))) ∧
  ∀ c, s.ch[s.arg 0]? = some c → c.typeId.toNat ∉ accepted → exec i s = .next (s.withInvalid 0xFD#8 lo hi)

/-- Some run of a command ends with an error code, 0 for completion (R221, R230). -/
def endsWith (i : Instr) (code : Byte) : Prop := ∃ s t, exec i s = .next t ∧ t.err = code

/-- The store with the payload of record `k`, which is `c`, replaced. -/
def State.storing (s : State) (k : Nat) (c : Chunk) (d : Bytes) : State :=
  { s with ch := s.ch.set k { c with data := d } }

/-- The sprite number of a pixel command's id on a record (R136): ids 0..255 on a Tiles record, 256..511 less 256 on a
Sprites record. -/
def spriteOf (c : Chunk) (id n : Nat) : Prop :=
  (c.typeId = 1#5 ∧ id ≤ 255 ∧ n = id) ∨ (c.typeId = 2#5 ∧ 256 ≤ id ∧ id ≤ 511 ∧ n + 256 = id)

/-- How a pixel command fails on its coordinates (R136), in the order of the checks. -/
def failsPixel (i : Instr) (s : State) : Prop :=
  failsSelect i s [1, 2] 1 2 ∧
  ∀ c, s.ch[s.arg 0]? = some c →
    (c.typeId = 1#5 → 255 < s.arg 1 → exec i s = .next (s.withInvalid 0x01#8 0 255)) ∧
    (c.typeId = 2#5 → (s.arg 1 < 256 ∨ 511 < s.arg 1) → exec i s = .next (s.withInvalid 0x01#8 256 511)) ∧
    ∀ n, spriteOf c (s.arg 1) n →
      (7 < s.arg 2 → exec i s = .next (s.withInvalid 0x02#8 0 7)) ∧
      (s.arg 2 ≤ 7 → 7 < s.arg 3 → exec i s = .next (s.withInvalid 0x03#8 0 7))

/-- A stream tail that is not empty and holds no complete frame (R113): fewer than 4 bytes, or a header that announces
more payload bytes than are left. -/
def cutFrame (tail : Bytes) : Prop :=
  (tail ≠ [] ∧ tail.length < 4) ∨
  ∃ hb b1 b2 b3 body, tail = hb :: b1 :: b2 :: b3 :: body ∧ body.length < b1.toNat + 256 * b2.toNat

/-- The condition of R191 on one header: its key and value come back from their formatted line. -/
def headerKeeps (h : Header) : Prop :=
  colon ∉ h.1 ∧ Config.lf ∉ h.1 ∧ h.1.head? ≠ some hyphen ∧ Config.lf ∉ h.2 ∧
  (∀ b, h.1.head? = some b ∨ h.1.getLast? = some b ∨ h.2.head? = some b ∨ h.2.getLast? = some b → b ∉ Config.whiteSpace)

/-- The record `A[0]` selects is there and its variant is one the class accepts (R16): when `Select` passes. -/
def State.selects (s : State) (cls : CodecClass) (c : Chunk) : Prop :=
  s.ch[s.arg 0]? = some c ∧ cls.accepts (variant c.typeId) = true

/-- A store as it reads back after SERIALIZE and PARSE: every payload without its trailing zeros (R131). -/
def stripStore (cs : List Chunk) : List Chunk := cs.map fun c => { c with data := stripTZ c.data }

/-- The condition of R78 under which a record's type id and bank survive the header byte. -/
def bankSurvives (shift : Config.BankShift) (c : Chunk) : Prop := shift = .five ∨ c.bank = 0#3

/-- The host has copied `OUT` to `IN` (P2, R131). -/
def State.copyOutToIn (s : State) : State := { s with inBuf := s.outBuf, inLen := s.outLen }

/-- The opcode values R89 reserves, range by range. -/
def reservedOpcode (n : Nat) : Prop :=
  n = 0x00 ∨ (0x03 ≤ n ∧ n ≤ 0x0F) ∨ (0x12 ≤ n ∧ n ≤ 0x1F) ∨ (0x22 ≤ n ∧ n ≤ 0x2F) ∨ (0x32 ≤ n ∧ n ≤ 0x3F) ∨
  (0x42 ≤ n ∧ n ≤ 0x4F) ∨ (0x53 ≤ n ∧ n ≤ 0x5F) ∨ (0x66 ≤ n ∧ n ≤ 0xFF)

/-- The table of R230: the error codes a command can end with. A frame is no command. -/
def raisable (i : Instr) : List Byte :=
  match i with
  | .parse => [3#8]
  | .setPixel | .getPixel | .setTile | .getTile | .setFlags | .getFlags => [1#8]
  | .setColor | .getColor => [1#8, 5#8]
  | .getSource | .setBody | .setHeaders | .lookup | .hasType | .rdChunk | .wrData => [1#8]
  | .create => [1#8, 2#8]
  | .importColors => [4#8, 5#8]
  | .chunkRsv0 _ _ _ | .chunkTiles _ _ _ | .chunkSprites _ _ _ | .chunkCoverDep _ _ _
  | .chunkMap _ _ _ | .chunkCode _ _ _ | .chunkFlags _ _ _ | .chunkRsv7 _ _ _
  | .chunkRsv8 _ _ _ | .chunkSamples _ _ _ | .chunkWaveform _ _ _ | .chunkRsv11 _ _ _
  | .chunkPalette _ _ _ | .chunkPatternsDep _ _ _ | .chunkMusic _ _ _ | .chunkPatterns _ _ _
  | .chunkZcodeDep _ _ _ | .chunkDefault _ _ _ | .chunkScreen _ _ _ | .chunkBinary _ _ _
  | .chunkRsv20 _ _ _ | .chunkRsv21 _ _ _ | .chunkRsv22 _ _ _ | .chunkRsv23 _ _ _
  | .chunkRsv24 _ _ _ | .chunkRsv25 _ _ _ | .chunkRsv26 _ _ _ | .chunkRsv27 _ _ _
  | .chunkRsv28 _ _ _ | .chunkRsv29 _ _ _ | .chunkRsv30 _ _ _ | .chunkRsv31 _ _ _ => []
  | .serialize => []

/-- The commands that begin by selecting a chunk with `A[0]` (R87). -/
def selectorCommands : List Instr :=
  [.setPixel, .getPixel, .setColor, .getColor, .setTile, .getTile, .setFlags, .getFlags, .getSource, .setBody,
    .setHeaders, .rdChunk, .wrData]

/-- The state a step answers, or the state itself where it answers none. -/
def nextOr (s : State) : StepResult → State
  | .next t => t
  | .fault _ => s
  | .refused _ => s

/-- The sixteen commands `SETCOLOR j, i, 0x7, r_i, g_i, b_i` of R211, in order, on the colours in `DIN`. -/
def sixteenSetColors (s : State) (j : Nat) : State :=
  (List.range 16).foldl (fun u i =>
    nextOr u (exec .setColor { u with
      a := #v[BitVec.ofNat 32 j, BitVec.ofNat 32 i, 7#32, (byteAt u.din (3 * i)).setWidth 32,
        (byteAt u.din (3 * i + 1)).setWidth 32, (byteAt u.din (3 * i + 2)).setWidth 32] })) s

end Sys2Proof.Machine
end

