-- ==== Sys2Proof/Certificates/Slice0/Obligations.lean ====
section
/-! DEFINITION. The statements for the provers, from the numbered rules of spec/. Each command's statement gives its
opcode, every failing form in the order of R231, and its result as one equation of states, which is also its frame. -/

open Sys2Proof Sys2Proof.Machine

/-! ## Encoding (30_encoding.md) -/

/-- R75 to R87: the decoder gives back every well-formed instruction of both formats from its encoding, and leaves the
bytes after it. -/
def Obligations.DecodeGivesBackEveryInstruction : Prop :=
  ∀ (i : Instr) (rest : Bytes), i.wellFormed = true → decode i.port (encode i ++ rest) = .ok (i, rest)

/-- The other direction: what decodes is well formed, comes from its own port, and encodes to the bytes it was read
from, so no byte string has two meanings. -/
def Obligations.EncodeGivesBackTheBytesRead : Prop :=
  ∀ (p : Port) (bs rest : Bytes) (i : Instr), decode p bs = .ok (i, rest) →
    i.wellFormed = true ∧ i.port = p ∧ encode i ++ rest = bs

/-- R76, R77, R78: what the header byte written for a record reads back as, under both shifts. -/
def Obligations.HeaderByteRoundTrip : Prop :=
  (∀ (shift : Config.BankShift) (c : Chunk) (fill : Byte), ∃ f,
    takeFrame [headerByte shift c, 0x00#8, 0x00#8, fill] = .ok (f, []) ∧
    ((f.typeId = c.typeId ∧ f.bank = c.bank) ↔ (shift = .five ∨ c.bank = 0#3)) ∧
    (shift = .three → f.typeId.toNat = (8 * c.bank.toNat + c.typeId.toNat) % 32 ∧
      f.bank.toNat = (8 * c.bank.toNat + c.typeId.toNat) / 32)) ∧
  headerByte .three ⟨1#5, 1#3, []⟩ = 0x09#8

/-- The bytes of the examples of R110, R117 to R124 and the opcodes of R87 decode to the instructions they stand
for. -/
def Obligations.SpelledOutWordsDecode : Prop :=
  decode .frame [0x0C#8, 0x03#8, 0x00#8, 0x00#8, 0x11#8, 0x22#8, 0x33#8] =
    .ok (.chunkPalette 0#3 0x00#8 [0x11#8, 0x22#8, 0x33#8], []) ∧
  decode .frame [0x05#8, 0x02#8, 0x00#8, 0x00#8, 0x68#8, 0x69#8, 0x07#8] =
    .ok (.chunkCode 0#3 0x00#8 [0x68#8, 0x69#8], [0x07#8]) ∧
  decode .frame [0xFF#8, 0x01#8, 0x00#8, 0xAB#8, 0x00#8] = .ok (.chunkRsv31 7#3 0xAB#8 [0x00#8], []) ∧
  decode .frame [0x2C#8, 0x00#8, 0x00#8, 0x00#8] = .ok (.chunkPalette 1#3 0x00#8 [], []) ∧
  decode .frame [0x0C#8, 0x0A#8, 0x00#8, 0x00#8, 0xAA#8, 0xBB#8] = .error .truncatedPayload ∧
  decode .command [0x01#8] = .ok (.parse, []) ∧
  decode .command [0x10#8] = .ok (.setPixel, []) ∧
  decode .command [0x65#8] = .ok (.importColors, []) ∧
  decode .command [0x66#8] = .error (.reservedOpcode 0x66#8)

/-- R89: a reserved opcode ends in `InvalidArgument`, `ERRARG` = 0xFF, bounds 0, and changes nothing else. -/
def Obligations.ReservedOpcodeRaises : Prop :=
  ∀ s : State, s.seq = .issued → reservedOpcode s.cmd.toNat →
    step s = .next ({ s with seq := .idle }.withInvalid 0xFF#8 0 0)

/-! ## The step (10_state.md, 20_memory.md, 40_container_parse.md) -/

/-- R30, R66, R111: a pending command's step is `exec` of the decoded opcode on the state with the command no longer
pending; inside PARSE the step is `exec` of the frame decoded at `POS`, and at the end of the bytes, or inside a frame,
the end of PARSE (the frame-by-frame view of PARSE is the model's, log 1). -/
def Obligations.StepRunsTheDecodedInstruction : Prop :=
  (∀ (s : State) (i : Instr) (rest : Bytes), s.seq = .issued → decode .command [s.cmd] = .ok (i, rest) →
    step s = exec i { s with seq := .idle }) ∧
  (∀ (s : State) (i : Instr) (rest : Bytes), s.seq = .parsing → s.pos ≠ s.inLen →
    decode .frame s.streamBytes = .ok (i, rest) → step s = exec i s) ∧
  (∀ s : State, s.seq = .parsing → s.pos ≠ s.inLen → s.streamBytes = [] ∨ cutFrame s.streamBytes →
    step s = .next ({ s with seq := .idle, staging := [] }.withError 3#8)) ∧
  (∀ s : State, s.seq = .parsing → s.pos = s.inLen → s.staging.length ≤ s.params.maxChunks.toNat →
    step s = .next ({ s with
      seq := .idle
      staging := []
      ch := s.staging
      r := s.r.set 0 (BitVec.ofNat 32 s.staging.length) }.withError 0#8))

/-- R37: the reset state, register by register. -/
def Obligations.ResetValues : Prop :=
  State.reset.ch = [] ∧ State.reset.chn = 0#32 ∧ State.reset.pos = 0#32 ∧
  State.reset.inLen = 0#32 ∧ State.reset.outLen = 0#32 ∧ State.reset.dinLen = 0#32 ∧ State.reset.doutLen = 0#32 ∧
  State.reset.inBytes = [] ∧ State.reset.out = [] ∧ State.reset.din = [] ∧ State.reset.dout = [] ∧
  State.reset.eoi = true ∧ State.reset.flagsWord = 1#32 ∧ State.reset.cmd = 0#8 ∧
  (∀ i : Fin 6, State.reset.a[i] = 0#32) ∧ (∀ i : Fin 4, State.reset.r[i] = 0#32) ∧
  State.reset.err = 0#8 ∧ State.reset.errArg = 0#8 ∧ State.reset.errLo = 0#32 ∧ State.reset.errHi = 0#32 ∧
  State.reset.cfgFill = 0#8

/-- R250, R251: the host's reset is total from any state between commands (parameters, the host's own list and the
count of free values are not the block's, log 12); and with no host access left the block does nothing. -/
def Obligations.ResetIsTotalAndTheBlockWaits : Prop :=
  (∀ (s : State) (rest : List HostAccess), s.seq = .idle → s.host = .reset :: rest →
    step s = .next { State.reset with params := s.params, host := rest, freeCount := s.freeCount }) ∧
  (∀ s : State, s.seq = .idle → s.host = [] → step s = .next s)

/-- R252: every command is defined on the reset state, with whatever operands and `DIN` the host places. -/
def Obligations.EveryCommandIsDefinedOnReset : Prop :=
  ∀ (a : Vector Word 6) (d : Mem) (n : Word) (s : State), s = { State.reset with a := a, dinBuf := d, dinLen := n } →
    (∀ i ∈ selectorCommands, exec i s = .next (s.withInvalid 0x00#8 0 0)) ∧
    (a[0].toNat ≤ 31 → exec .lookup s = .next (s.withError 0#8) ∧ exec .hasType s = .next (s.withError 0#8)) ∧
    exec .serialize s = .next (s.withError 0#8) ∧ exec .parse s = .next (s.withError 0#8) ∧
    (registered a[0].toNat = true → a[1].toNat ≤ 7 → n.toNat ≤ 65535 →
      ∃ c t, exec .create s = .next t ∧ t.ch = [c] ∧ t.err = 0#8) ∧
    (n = 48#32 → ∃ c t, exec .importColors s = .next t ∧ t.ch = [c] ∧ t.err = 0#8)

/-- R15 and the table of R81: the variant and the registration of every type id. -/
def Obligations.RegistryGivesVariantAndRegistration : Prop :=
  (∀ t : BitVec 5, variant t =
    if t = 1#5 then .tiles else if t = 2#5 then .sprites else if t = 4#5 then .map else if t = 5#5 then .code
    else if t = 6#5 then .flags else if t = 12#5 then .palette else .generic) ∧
  (∀ n : Nat, registered n = true ↔
    n = 1 ∨ n = 2 ∨ n = 3 ∨ n = 4 ∨ n = 5 ∨ n = 6 ∨ n = 9 ∨ n = 10 ∨ (12 ≤ n ∧ n ≤ 19)) ∧
  registryTable.map (·.typeId) = List.range 32 ∧
  (∀ row ∈ registryTable, row.variant = variant (BitVec.ofNat 5 row.typeId) ∧ row.inRegistry = registered row.typeId)

/-! ## PARSE and the frames (40_container_parse.md) -/

/-- R110, R111, R117 to R124: all 32 frame instructions. Each completes in every state: the record joins the staging
list, `POS` advances by 4 + length, nothing else changes. -/
def Obligations.FramePassAppendsTheRecord : Prop :=
  ∀ (i : Instr) (f : Frame) (s : State), i.form = .frame f →
    exec i s = .next { s with
      staging := s.staging ++ [Chunk.mk f.typeId f.bank f.payload]
      pos := s.pos + BitVec.ofNat 32 (4 + f.payload.length) }

/-- R111, R113, R85: every byte stream is a run of complete frames and a tail that is empty or a cut frame, in one way
only. -/
def Obligations.EveryStreamIsFramesThenATail : Prop :=
  ∀ bs : Bytes,
    (∃ (fs : List Frame) (tail : Bytes), bs = fs.flatMap encodeFrame ++ tail ∧ (∀ f ∈ fs, f.payload.length ≤ 65535) ∧
      (tail = [] ∨ cutFrame tail)) ∧
    (∀ (fs : List Frame) (tail : Bytes) (gs : List Frame) (tail' : Bytes), bs = fs.flatMap encodeFrame ++ tail → (∀ f ∈ fs, f.payload.length ≤ 65535) →
      (tail = [] ∨ cutFrame tail) → bs = gs.flatMap encodeFrame ++ tail' → (∀ g ∈ gs, g.payload.length ≤ 65535) →
      (tail' = [] ∨ cutFrame tail') → fs = gs ∧ tail = tail')

/-- R110, R112, R116: a stream of complete frames, whatever is in them, replaces the whole store; `POS` = `INLEN`,
`R[0]` = the number of frames, and nothing else changes. -/
def Obligations.ParseReplacesTheStore : Prop :=
  ∀ (s : State) (fs : List Frame), s.inBytes = fs.flatMap encodeFrame → (∀ f ∈ fs, f.payload.length ≤ 65535) →
    fs.length ≤ s.params.maxChunks.toNat →
    exec .parse s = .next ({ s with
      ch := fs.map fun (f : Frame) => Chunk.mk f.typeId f.bank f.payload
      pos := s.inLen
      r := s.r.set 0 (BitVec.ofNat 32 fs.length) }.withError 0#8)

/-- R113: a stream that ends inside a frame is `TruncatedInput`; `POS` is the offset of the cut frame, below `INLEN`,
and the frames before it are not kept. -/
def Obligations.TruncatedStreamKeepsTheStore : Prop :=
  ∀ (s : State) (fs : List Frame) (tail : Bytes), s.inBytes = fs.flatMap encodeFrame ++ tail →
    (∀ f ∈ fs, f.payload.length ≤ 65535) → cutFrame tail →
    ∃ p : Word, p.toNat = (fs.flatMap encodeFrame).length ∧ p < s.inLen ∧
      exec .parse s = .next ({ s with pos := p }.withError 3#8)

/-- R114: the empty stream parses to the empty store. -/
def Obligations.EmptyStreamGivesTheEmptyStore : Prop :=
  ∀ s : State, s.inLen = 0#32 →
    exec .parse s = .next ({ s with ch := [], pos := 0#32, r := s.r.set 0 0#32 }.withError 0#8)

/-- R27, R36, R110, R111: PARSE as one command is the run of its frame passes from `POS` = 0 and an empty staging list,
in at most `INLEN div 4` passes and one last step. (That PARSE is one step is R275's; the frame-by-frame phase is the
model's, log 1.) -/
def Obligations.ParseIsTheRunOfItsFrames : Prop :=
  ∀ s : State, s.seq = .idle → s.staging = [] →
    ∃ k, k ≤ s.inLen.toNat / 4 + 1 ∧
      Host.Core.run Sys2Proof.core k { s with pos := 0#32, seq := .parsing } = exec .parse s

/-! ## SERIALIZE (41_serialize.md) -/

/-- R14: `StripTZ` keeps the bytes before the least position from which on all bytes are zero. -/
def Obligations.StripRemovesExactlyTheTrailingZeros : Prop :=
  (∀ d : Bytes, ∃ j, j ≤ d.length ∧ stripTZ d = d.take j ∧ (∀ a, j ≤ a → byteAt d a = 0#8) ∧
    (∀ m, (∀ a, m ≤ a → byteAt d a = 0#8) → j ≤ m)) ∧
  stripTZ [] = [] ∧ (∀ (d : Bytes) (b : Byte), stripTZ (d ++ [b]) = if b = 0#8 then stripTZ d else d ++ [b]) ∧
  (∀ n, stripTZ (List.replicate n 0#8) = [])

/-- R125 to R130: SERIALIZE writes one frame per record, in order, each payload stripped first, and changes only `OUT`,
`OUTLEN` and `R[0]`, while the stream is below 2^32 bytes (R132). -/
def Obligations.SerializeWritesEveryFrame : Prop :=
  decode .command [0x02#8] = .ok (.serialize, []) ∧
  ∀ (s : State) (o : Bytes),
    o = (s.ch.flatMap fun c =>
      [BitVec.ofNat 8 (c.bank.toNat * 2 ^ s.params.bankShift.amount + c.typeId.toNat),
        BitVec.ofNat 8 (stripTZ c.data).length, BitVec.ofNat 8 ((stripTZ c.data).length / 256), s.cfgFill] ++
      stripTZ c.data) →
    o.length < 2 ^ 32 →
    ∃ t, exec .serialize s = .next t ∧ t.out = o ∧
      t = { s with
        outBuf := t.outBuf
        outLen := BitVec.ofNat 32 o.length
        r := s.r.set 0 (BitVec.ofNat 32 o.length) }.withError 0#8

/-- R131, first direction: SERIALIZE, copy `OUT` to `IN`, PARSE gives the same records in the same order with stripped
payloads, and the same type id and bank wherever the bank survives the header byte (R78). -/
def Obligations.SerializeThenParse : Prop :=
  ∀ s t : State, storeFits s.ch → s.ch.length ≤ s.params.maxChunks.toNat → exec .serialize s = .next t →
    ∃ u, exec .parse { t with inBuf := t.outBuf, inLen := t.outLen } = .next u ∧ u.err = 0#8 ∧
      u.ch.length = s.ch.length ∧
      ∀ (k : Nat) (c : Chunk), s.ch[k]? = some c → ∃ c' : Chunk, u.ch[k]? = some c' ∧ c'.data = stripTZ c.data ∧
        (s.params.bankShift = .five ∨ c.bank = 0#3 → c'.typeId = c.typeId ∧ c'.bank = c.bank)

/-- R131, other direction: after a PARSE that succeeds, SERIALIZE gives the stream back exactly when no payload ends in
zero, every reserved byte is `CFG_FILL` and every bank survives. -/
def Obligations.ParseThenSerialize : Prop :=
  ∀ (s t : State) (fs : List Frame), s.inBytes = fs.flatMap encodeFrame → (∀ f ∈ fs, f.payload.length ≤ 65535) →
    exec .parse s = .next t →
    ∃ u, exec .serialize t = .next u ∧
      (u.out = s.inBytes ↔
        ∀ f ∈ fs, f.payload.getLast? ≠ some 0#8 ∧ f.reserved = s.cfgFill ∧
          (s.params.bankShift = .five ∨ f.bank = 0#3))

/-! ## Tiles and Sprites (42_tiles_sprites.md) -/

/-- R136, R137: SETPIXEL, every failing form in order and the pixel written: one nibble of the byte at `pixelByte`, the
payload grown with zeros up to it, every other byte kept. -/
def Obligations.SetPixelWritesOneNibble : Prop :=
  decode .command [0x10#8] = .ok (.setPixel, []) ∧
  (∀ n x y, pixelByte n x y = n * 32 + x / 2 + y * 4) ∧
  ∀ s : State, failsPixel .setPixel s ∧
    ∀ c n, s.ch[s.arg 0]? = some c → spriteOf c (s.arg 1) n → s.arg 2 ≤ 7 → s.arg 3 ≤ 7 →
      (15 < s.arg 4 → exec .setPixel s = .next (s.withInvalid 0x04#8 0 15)) ∧
      (s.arg 4 ≤ 15 → ∃ d, exec .setPixel s = .next ((s.storing (s.arg 0) c d).withError 0#8) ∧
        d.length = max c.data.length (pixelByte n (s.arg 2) (s.arg 3) + 1) ∧
        (∀ a, a ≠ pixelByte n (s.arg 2) (s.arg 3) → byteAt d a = byteAt c.data a) ∧
        (byteAt d (pixelByte n (s.arg 2) (s.arg 3))).toNat =
          if s.arg 2 % 2 = 0 then (byteAt c.data (pixelByte n (s.arg 2) (s.arg 3))).toNat / 16 * 16 + s.arg 4
          else (byteAt c.data (pixelByte n (s.arg 2) (s.arg 3))).toNat % 16 + s.arg 4 * 16)

/-- R136, R138: GETPIXEL, every failing form in order and the nibble read, 0 beyond the payload; only `R[0]`
changes. -/
def Obligations.GetPixelReadsOneNibble : Prop :=
  decode .command [0x11#8] = .ok (.getPixel, []) ∧
  ∀ s : State, failsPixel .getPixel s ∧
    ∀ c n, s.ch[s.arg 0]? = some c → spriteOf c (s.arg 1) n → s.arg 2 ≤ 7 → s.arg 3 ≤ 7 →
      exec .getPixel s = .next ({ s with r := s.r.set 0 (BitVec.ofNat 32
        (if c.data.length ≤ pixelByte n (s.arg 2) (s.arg 3) then 0
         else if s.arg 2 % 2 = 0 then (byteAt c.data (pixelByte n (s.arg 2) (s.arg 3))).toNat % 16
         else (byteAt c.data (pixelByte n (s.arg 2) (s.arg 3))).toNat / 16)) }.withError 0#8)

/-- R139: a pixel written is read back, and the outcome of GETPIXEL at every other coordinates of the chunk is what it
was; the addressing is injective. -/
def Obligations.PixelRoundTrip : Prop :=
  (∀ (s : State) (c : Chunk) (n : Nat), s.ch[s.arg 0]? = some c → spriteOf c (s.arg 1) n → s.arg 2 ≤ 7 →
    s.arg 3 ≤ 7 → s.arg 4 ≤ 15 →
    ∃ t u, exec .setPixel s = .next t ∧ exec .getPixel t = .next u ∧ u.err = 0#8 ∧ u.r[0] = s.a[4] ∧
      ∀ (b : Vector Word 6) (v : State), b[0] = s.a[0] → (b[1], b[2], b[3]) ≠ (s.a[1], s.a[2], s.a[3]) →
        exec .getPixel { s with a := b } = .next v →
        ∃ w, exec .getPixel { t with a := b } = .next w ∧ w.err = v.err ∧ w.r[0] = v.r[0]) ∧
  (∀ n x y n' x' y', x ≤ 7 → y ≤ 7 → x' ≤ 7 → y' ≤ 7 → pixelByte n x y = pixelByte n' x' y' → x % 2 = x' % 2 →
    n = n' ∧ x = x' ∧ y = y')

/-! ## Palette (43_palette.md) -/

/-- R151, R153: SETCOLOR, every failing form in order (a channel is checked only when its mask bit supplies it) and the
supplied channels written; the payload length and every other byte are kept. -/
def Obligations.SetColorWritesTheSuppliedChannels : Prop :=
  decode .command [0x20#8] = .ok (.setColor, []) ∧
  (∀ id ch, colorByte id ch = 3 * id + ch) ∧
  ∀ s : State, failsSelect .setColor s [12] 12 12 ∧
    ∀ c, s.ch[s.arg 0]? = some c → c.typeId = 12#5 →
      (15 < s.arg 1 → exec .setColor s = .next (s.withInvalid 0x01#8 0 15)) ∧
      (s.arg 1 ≤ 15 → 7 < s.arg 2 → exec .setColor s = .next (s.withInvalid 0x02#8 0 7)) ∧
      (s.arg 1 ≤ 15 → s.arg 2 ≤ 7 → s.arg 2 % 2 = 1 → 255 < s.arg 3 →
        exec .setColor s = .next (s.withInvalid 0x03#8 0 255)) ∧
      (s.arg 1 ≤ 15 → s.arg 2 ≤ 7 → (s.arg 2 % 2 = 1 → s.arg 3 ≤ 255) → s.arg 2 / 2 % 2 = 1 → 255 < s.arg 4 →
        exec .setColor s = .next (s.withInvalid 0x04#8 0 255)) ∧
      (s.arg 1 ≤ 15 → s.arg 2 ≤ 7 → (s.arg 2 % 2 = 1 → s.arg 3 ≤ 255) → (s.arg 2 / 2 % 2 = 1 → s.arg 4 ≤ 255) →
        s.arg 2 / 4 % 2 = 1 → 255 < s.arg 5 → exec .setColor s = .next (s.withInvalid 0x05#8 0 255)) ∧
      (s.arg 1 ≤ 15 → s.arg 2 ≤ 7 → (s.arg 2 % 2 = 1 → s.arg 3 ≤ 255) → (s.arg 2 / 2 % 2 = 1 → s.arg 4 ≤ 255) →
        (s.arg 2 / 4 % 2 = 1 → s.arg 5 ≤ 255) →
        (c.data.length < 48 → exec .setColor s = .next (s.withError 5#8)) ∧
        (48 ≤ c.data.length → ∃ d, exec .setColor s = .next ((s.storing (s.arg 0) c d).withError 0#8) ∧
          d.length = c.data.length ∧
          ∀ a, (byteAt d a).toNat =
            if s.arg 2 % 2 = 1 ∧ a = colorByte (s.arg 1) 0 then s.arg 3
            else if s.arg 2 / 2 % 2 = 1 ∧ a = colorByte (s.arg 1) 1 then s.arg 4
            else if s.arg 2 / 4 % 2 = 1 ∧ a = colorByte (s.arg 1) 2 then s.arg 5
            else (byteAt c.data a).toNat))

/-- R151, R152: GETCOLOR, every failing form in order and the three channels read; only `R[0..2]` change. -/
def Obligations.GetColorReadsThreeChannels : Prop :=
  decode .command [0x21#8] = .ok (.getColor, []) ∧
  ∀ s : State, failsSelect .getColor s [12] 12 12 ∧
    ∀ c, s.ch[s.arg 0]? = some c → c.typeId = 12#5 →
      (15 < s.arg 1 → exec .getColor s = .next (s.withInvalid 0x01#8 0 15)) ∧
      (s.arg 1 ≤ 15 → c.data.length < 48 → exec .getColor s = .next (s.withError 5#8)) ∧
      (s.arg 1 ≤ 15 → 48 ≤ c.data.length →
        exec .getColor s = .next ({ s with r := #v[
          BitVec.ofNat 32 (byteAt c.data (3 * s.arg 1)).toNat, BitVec.ofNat 32 (byteAt c.data (3 * s.arg 1 + 1)).toNat,
          BitVec.ofNat 32 (byteAt c.data (3 * s.arg 1 + 2)).toNat, s.r[3]] }.withError 0#8))

/-- R154: a colour written whole is read back exactly, and every other colour of the chunk reads as before. -/
def Obligations.ColorRoundTrip : Prop :=
  ∀ (s : State) (c : Chunk), s.ch[s.arg 0]? = some c → c.typeId = 12#5 → 48 ≤ c.data.length → s.arg 1 ≤ 15 →
    s.arg 2 = 7 → s.arg 3 ≤ 255 → s.arg 4 ≤ 255 → s.arg 5 ≤ 255 →
    ∃ t u, exec .setColor s = .next t ∧ exec .getColor t = .next u ∧ u.err = 0#8 ∧
      u.r[0] = s.a[3] ∧ u.r[1] = s.a[4] ∧ u.r[2] = s.a[5] ∧
      (∀ k a, ¬(k = s.arg 0 ∧ 3 * s.arg 1 ≤ a ∧ a ≤ 3 * s.arg 1 + 2) → t.payByte k a = s.payByte k a) ∧
      ∀ (b : Vector Word 6) (v : State), b[0] = s.a[0] → b[1] ≠ s.a[1] →
        exec .getColor { s with a := b } = .next v →
        ∃ w, exec .getColor { t with a := b } = .next w ∧ w.err = v.err ∧ w.r = v.r

/-! ## Map (44_map.md) -/

/-- R160, R161: SETTILE, every failing form in order and the cell written, the payload grown with zeros up to it. -/
def Obligations.SetTileWritesOneCell : Prop :=
  decode .command [0x30#8] = .ok (.setTile, []) ∧
  (∀ x y, mapByte x y = x + y * 240) ∧
  ∀ s : State, failsSelect .setTile s [4] 4 4 ∧
    ∀ c, s.ch[s.arg 0]? = some c → c.typeId = 4#5 →
      (239 < s.arg 1 → exec .setTile s = .next (s.withInvalid 0x01#8 0 239)) ∧
      (s.arg 1 ≤ 239 → 239 < s.arg 2 → exec .setTile s = .next (s.withInvalid 0x02#8 0 239)) ∧
      (s.arg 1 ≤ 239 → s.arg 2 ≤ 239 → 255 < s.arg 3 → exec .setTile s = .next (s.withInvalid 0x03#8 0 255)) ∧
      (s.arg 1 ≤ 239 → s.arg 2 ≤ 239 → s.arg 3 ≤ 255 →
        ∃ d, exec .setTile s = .next ((s.storing (s.arg 0) c d).withError 0#8) ∧
          d.length = max c.data.length (mapByte (s.arg 1) (s.arg 2) + 1) ∧
          ∀ a, (byteAt d a).toNat = if a = mapByte (s.arg 1) (s.arg 2) then s.arg 3 else (byteAt c.data a).toNat)

/-- R162: GETTILE, every failing form in order and the cell read, 0 beyond the payload; only `R[0]` changes. -/
def Obligations.GetTileReadsOneCell : Prop :=
  decode .command [0x31#8] = .ok (.getTile, []) ∧
  ∀ s : State, failsSelect .getTile s [4] 4 4 ∧
    ∀ c, s.ch[s.arg 0]? = some c → c.typeId = 4#5 →
      (239 < s.arg 1 → exec .getTile s = .next (s.withInvalid 0x01#8 0 239)) ∧
      (s.arg 1 ≤ 239 → 239 < s.arg 2 → exec .getTile s = .next (s.withInvalid 0x02#8 0 239)) ∧
      (s.arg 1 ≤ 239 → s.arg 2 ≤ 239 →
        exec .getTile s = .next ({ s with r := s.r.set 0 (BitVec.ofNat 32
          (if c.data.length ≤ mapByte (s.arg 1) (s.arg 2) then 0
           else (byteAt c.data (mapByte (s.arg 1) (s.arg 2))).toNat)) }.withError 0#8))

/-- R163: a tile written is read back, every other cell of the chunk reads as before, and a cell beyond the payload
reads 0. -/
def Obligations.TileRoundTrip : Prop :=
  (∀ (s : State) (c : Chunk), s.ch[s.arg 0]? = some c → c.typeId = 4#5 → s.arg 1 ≤ 239 → s.arg 2 ≤ 239 →
    s.arg 3 ≤ 255 →
    ∃ t u, exec .setTile s = .next t ∧ exec .getTile t = .next u ∧ u.err = 0#8 ∧ u.r[0] = s.a[3] ∧
      ∀ (b : Vector Word 6) (v : State), b[0] = s.a[0] → (b[1], b[2]) ≠ (s.a[1], s.a[2]) →
        exec .getTile { s with a := b } = .next v →
        ∃ w, exec .getTile { t with a := b } = .next w ∧ w.err = v.err ∧ w.r = v.r) ∧
  (∀ (s : State) (c : Chunk), s.ch[s.arg 0]? = some c → c.typeId = 4#5 → s.arg 1 ≤ 239 → s.arg 2 ≤ 239 →
    c.data.length ≤ mapByte (s.arg 1) (s.arg 2) →
    exec .getTile s = .next ({ s with r := s.r.set 0 0#32 }.withError 0#8)) ∧
  (∀ x y x' y', x ≤ 239 → x' ≤ 239 → mapByte x y = mapByte x' y' → x = x' ∧ y = y')

/-! ## Flags (45_flags.md) -/

/-- R170, R171: SETFLAGS, every failing form in order and the sprite's byte overwritten with the `count` low bits of
`bits`, the payload grown with zeros up to it. -/
def Obligations.SetFlagsWritesOneByte : Prop :=
  decode .command [0x40#8] = .ok (.setFlags, []) ∧
  ∀ s : State, failsSelect .setFlags s [6] 6 6 ∧
    ∀ c, s.ch[s.arg 0]? = some c → c.typeId = 6#5 →
      (511 < s.arg 1 → exec .setFlags s = .next (s.withInvalid 0x01#8 0 511)) ∧
      (s.arg 1 ≤ 511 → 8 < s.arg 2 → exec .setFlags s = .next (s.withInvalid 0x02#8 0 8)) ∧
      (s.arg 1 ≤ 511 → s.arg 2 ≤ 8 →
        ∃ d, exec .setFlags s = .next ((s.storing (s.arg 0) c d).withError 0#8) ∧
          d.length = max c.data.length (s.arg 1 + 1) ∧
          ∀ a, (byteAt d a).toNat = if a = s.arg 1 then s.arg 3 % 2 ^ s.arg 2 else (byteAt c.data a).toNat)

/-- R172: GETFLAGS, every failing form in order and the byte read, 0 beyond the payload; only `R[0]` changes. -/
def Obligations.GetFlagsReadsOneByte : Prop :=
  decode .command [0x41#8] = .ok (.getFlags, []) ∧
  ∀ s : State, failsSelect .getFlags s [6] 6 6 ∧
    ∀ c, s.ch[s.arg 0]? = some c → c.typeId = 6#5 →
      (511 < s.arg 1 → exec .getFlags s = .next (s.withInvalid 0x01#8 0 511)) ∧
      (s.arg 1 ≤ 511 →
        exec .getFlags s = .next ({ s with r := s.r.set 0 (BitVec.ofNat 32
          (if c.data.length ≤ s.arg 1 then 0 else (byteAt c.data (s.arg 1)).toNat)) }.withError 0#8))

/-- R173: the flags read back are the `count` booleans written and false from there on, and every other sprite of the
chunk reads as before. -/
def Obligations.FlagsRoundTrip : Prop :=
  ∀ (s : State) (c : Chunk), s.ch[s.arg 0]? = some c → c.typeId = 6#5 → s.arg 1 ≤ 511 → s.arg 2 ≤ 8 →
    ∃ t u, exec .setFlags s = .next t ∧ exec .getFlags t = .next u ∧ u.err = 0#8 ∧
      (∀ n, u.r[0].getLsbD n = (decide (n < s.arg 2) && s.a[3].getLsbD n)) ∧
      ∀ (b : Vector Word 6) (v : State), b[0] = s.a[0] → b[1] ≠ s.a[1] →
        exec .getFlags { s with a := b } = .next v →
        ∃ w, exec .getFlags { t with a := b } = .next w ∧ w.err = v.err ∧ w.r = v.r

/-! ## Code (46_code.md) -/

/-- R181, R183, R185: the lines of a text; the split of a text into its leading header lines and the rest, verbatim, or
the empty body where every line is a header line; `Put` on a key the mapping has and on a new one; the mapping as the
fold of `Put` over the pairs in order, so that a repeated key keeps its first position and takes its last value, and its
distinct keys. -/
def Obligations.SourceSplitsAtTheFirstOtherLine : Prop :=
  (∀ d : Bytes, joinLines (textLines d) = d ∧ (textLines d).length = d.count 0x0A#8 + 1 ∧
    ∀ l ∈ textLines d, 0x0A#8 ∉ l) ∧
  (∀ l : Bytes, isHeaderLine l = true ↔ [0x2D#8, 0x2D#8] <+: l) ∧
  (∀ (ls : List Bytes) (body : Bytes), (∀ l ∈ ls, 0x0A#8 ∉ l ∧ [0x2D#8, 0x2D#8] <+: l) →
    ¬ [0x2D#8, 0x2D#8] <+: body →
    parseSource ((ls.flatMap fun l => l ++ [0x0A#8]) ++ body) = (headerMap (ls.map parseHeaderLine), body)) ∧
  (∀ (ls : List Bytes) (l : Bytes), (∀ x ∈ ls ++ [l], 0x0A#8 ∉ x ∧ [0x2D#8, 0x2D#8] <+: x) →
    parseSource ((ls.flatMap fun x => x ++ [0x0A#8]) ++ l) = (headerMap ((ls ++ [l]).map parseHeaderLine), [])) ∧
  (∀ (pre post : List Header) (k v w : Bytes), (∀ h ∈ pre, h.1 ≠ k) →
    putHeader (pre ++ (k, v) :: post) (k, w) = pre ++ (k, w) :: post) ∧
  (∀ (hs : List Header) (h : Header), (∀ g ∈ hs, g.1 ≠ h.1) → putHeader hs h = hs ++ [h]) ∧
  headerMap [] = [] ∧ (∀ (hs : List Header) (h : Header), headerMap (hs ++ [h]) = putHeader (headerMap hs) h) ∧
  (∀ hs : List Header, ((headerMap hs).map (·.1)).Nodup ∧ ∀ k, (∃ v, (k, v) ∈ headerMap hs) ↔ ∃ v, (k, v) ∈ hs)

/-- R182, R184: `Trim` and `LStripHyphen`, and the key and value of a header line with and without a colon. -/
def Obligations.HeaderLineGivesKeyAndValue : Prop :=
  (∀ d : Bytes, ∃ l r, d = l ++ trim d ++ r ∧ (∀ b ∈ l ++ r, b ∈ Config.whiteSpace) ∧
    (∀ b, (trim d).head? = some b ∨ (trim d).getLast? = some b → b ∉ Config.whiteSpace)) ∧
  (∀ d : Bytes, ∃ n, d = List.replicate n 0x2D#8 ++ stripHyphens d ∧ (stripHyphens d).head? ≠ some 0x2D#8) ∧
  (∀ before rest : Bytes, 0x3A#8 ∉ before →
    parseHeaderLine (before ++ 0x3A#8 :: rest) = (trim (stripHyphens before), trim rest) ∧
    parseHeaderLine before = (trim (stripHyphens before), []))

/-- R187: the formatted text: `-- key:`, padding to the longest key, one space, the value, `LF`, for each header in
order, then the body. -/
def Obligations.FormatLaysOutTheHeaders : Prop :=
  ∀ (hs : List Header) (body : Bytes), ∃ m, (∀ h ∈ hs, h.1.length ≤ m) ∧ (hs = [] → m = 0) ∧
    (hs ≠ [] → ∃ h ∈ hs, h.1.length = m) ∧
    formatSource hs body = (hs.flatMap fun h =>
      [0x2D#8, 0x2D#8, 0x20#8] ++ h.1 ++ [0x3A#8] ++ List.replicate (m - h.1.length) 0x20#8 ++ [0x20#8] ++ h.2 ++
        [0x0A#8]) ++ body

/-- R93: the bytes of a header list's wire format; it reads back from them, and only they read as it. -/
def Obligations.HeaderListRoundTrip : Prop :=
  (∀ hs : List Header, encodeHeaders hs = hs.flatMap fun h =>
    [BitVec.ofNat 8 h.1.length, BitVec.ofNat 8 (h.1.length / 256)] ++ h.1 ++
      [BitVec.ofNat 8 h.2.length, BitVec.ofNat 8 (h.2.length / 256)] ++ h.2) ∧
  (∀ hs : List Header, (∀ h ∈ hs, h.1.length ≤ 65535 ∧ h.2.length ≤ 65535) →
    decodeHeaders (encodeHeaders hs).length (encodeHeaders hs) = some hs) ∧
  (∀ (bs : Bytes) (hs : List Header), decodeHeaders bs.length bs = some hs →
    encodeHeaders hs = bs ∧ ∀ h ∈ hs, h.1.length ≤ 65535 ∧ h.2.length ≤ 65535)

/-- R186, R94: GETSOURCE, both failing forms and the header list and body in `DOUT` for every payload. -/
def Obligations.GetSourceReturnsHeadersAndBody : Prop :=
  decode .command [0x50#8] = .ok (.getSource, []) ∧
  ∀ s : State, failsSelect .getSource s [5] 5 5 ∧
    ∀ c hs body, s.ch[s.arg 0]? = some c → c.typeId = 5#5 → c.data.length ≤ 65535 → parseSource c.data = (hs, body) →
      ∃ t, exec .getSource s = .next t ∧ t.dout = encodeHeaders hs ++ body ∧
        t = { s with
          doutBuf := t.doutBuf
          doutLen := BitVec.ofNat 32 ((encodeHeaders hs).length + body.length)
          r := #v[BitVec.ofNat 32 hs.length, BitVec.ofNat 32 (encodeHeaders hs).length, BitVec.ofNat 32 body.length,
            s.r[3]] }.withError 0#8

/-- R188: SETBODY, every failing form in order and the payload it leaves: the parsed headers formatted again before the
bytes in `DIN`. -/
def Obligations.SetBodyReplacesTheBody : Prop :=
  decode .command [0x51#8] = .ok (.setBody, []) ∧
  ∀ s : State, failsSelect .setBody s [5] 5 5 ∧
    ∀ c hs old, s.ch[s.arg 0]? = some c → c.typeId = 5#5 → parseSource c.data = (hs, old) →
      (65535 < (formatSource hs s.din).length → exec .setBody s = .next (s.withInvalid 0xFE#8 0 65535)) ∧
      ((formatSource hs s.din).length ≤ 65535 →
        exec .setBody s = .next ((s.storing (s.arg 0) c (formatSource hs s.din)).withError 0#8))

/-- R189, R190: SETHEADERS, every failing form in order and the payload it leaves: the mapping in `DIN` formatted
before the parsed body. -/
def Obligations.SetHeadersReplacesTheHeaders : Prop :=
  decode .command [0x52#8] = .ok (.setHeaders, []) ∧
  ∀ s : State, failsSelect .setHeaders s [5] 5 5 ∧
    ∀ c old body, s.ch[s.arg 0]? = some c → c.typeId = 5#5 → parseSource c.data = (old, body) →
      ((¬∃ hs, (∀ h ∈ hs, h.1.length ≤ 65535 ∧ h.2.length ≤ 65535) ∧ encodeHeaders hs = s.din) →
        exec .setHeaders s = .next (s.withInvalid 0xFE#8 0 s.dinLen.toNat)) ∧
      ∀ hs, (∀ h ∈ hs, h.1.length ≤ 65535 ∧ h.2.length ≤ 65535) → encodeHeaders hs = s.din →
        (65535 < (formatSource (headerMap hs) body).length →
          exec .setHeaders s = .next (s.withInvalid 0xFE#8 0 65535)) ∧
        ((formatSource (headerMap hs) body).length ≤ 65535 →
          exec .setHeaders s = .next ((s.storing (s.arg 0) c (formatSource (headerMap hs) body)).withError 0#8))

/-- R191: a formatted text parses back to its headers and body under the conditions of the rule. -/
def Obligations.SourceRoundTrip : Prop :=
  ∀ (hs : List Header) (body : Bytes), (∀ h ∈ hs, headerKeeps h) → (hs.map (·.1)).Nodup →
    ¬ [0x2D#8, 0x2D#8] <+: body → parseSource (formatSource hs body) = (hs, body)

/-! ## The cartridge (47_cartridge.md) -/

/-- R200, R201, R92: LOOKUP, its failing form and the ascending list of all records of the type in `DOUT`, wherever the
list's length fits `DOUTLEN`. -/
def Obligations.LookupListsEveryRecordOfTheType : Prop :=
  decode .command [0x60#8] = .ok (.lookup, []) ∧
  ∀ s : State, (31 < s.arg 0 → exec .lookup s = .next (s.withInvalid 0x00#8 0 31)) ∧
    (s.arg 0 ≤ 31 → 4 * s.ch.countP (fun c => c.typeId.toNat == s.arg 0) < 2 ^ 32 →
      ∃ (t : State) (ks : List Nat), exec .lookup s = .next t ∧ ks.Pairwise (· < ·) ∧
        (∀ k, k ∈ ks ↔ ∃ c : Chunk, s.ch[k]? = some c ∧ c.typeId.toNat = s.arg 0) ∧
        t.dout = (ks.flatMap fun k => [BitVec.ofNat 8 k, BitVec.ofNat 8 (k / 2 ^ 8), BitVec.ofNat 8 (k / 2 ^ 16),
          BitVec.ofNat 8 (k / 2 ^ 24)]) ∧
        t = { s with
          doutBuf := t.doutBuf
          doutLen := BitVec.ofNat 32 (4 * ks.length)
          r := s.r.set 0 (BitVec.ofNat 32 ks.length) }.withError 0#8)

/-- R202: HASTYPE, its failing form and whether some record has the type; only `R[0]` changes. -/
def Obligations.HasTypeTellsWhetherARecordHasIt : Prop :=
  decode .command [0x61#8] = .ok (.hasType, []) ∧
  ∀ s : State, (31 < s.arg 0 → exec .hasType s = .next (s.withInvalid 0x00#8 0 31)) ∧
    (s.arg 0 ≤ 31 → (∃ (k : Nat) (c : Chunk), s.ch[k]? = some c ∧ c.typeId.toNat = s.arg 0) →
      exec .hasType s = .next ({ s with r := s.r.set 0 1#32 }.withError 0#8)) ∧
    (s.arg 0 ≤ 31 → (¬∃ (k : Nat) (c : Chunk), s.ch[k]? = some c ∧ c.typeId.toNat = s.arg 0) →
      exec .hasType s = .next ({ s with r := s.r.set 0 0#32 }.withError 0#8))

/-- R203, R204: CREATE, every failing form in order and the record appended, below `MAX_CHUNKS` records. -/
def Obligations.CreateAppendsARecord : Prop :=
  decode .command [0x62#8] = .ok (.create, []) ∧
  ∀ s : State, (registered (s.arg 0) = false → exec .create s = .next (s.withError 2#8)) ∧
    (registered (s.arg 0) = true →
      (7 < s.arg 1 → exec .create s = .next (s.withInvalid 0x01#8 0 7)) ∧
      (s.arg 1 ≤ 7 → 65535 < s.dinLen.toNat → exec .create s = .next (s.withInvalid 0xFE#8 0 65535)) ∧
      (s.arg 1 ≤ 7 → s.dinLen.toNat ≤ 65535 → s.ch.length < s.params.maxChunks.toNat →
        ∃ c : Chunk, exec .create s = .next ({ s with
            ch := s.ch ++ [c]
            r := s.r.set 0 (BitVec.ofNat 32 s.ch.length) }.withError 0#8) ∧
          c.typeId.toNat = s.arg 0 ∧ c.bank.toNat = s.arg 1 ∧ c.data = s.din))

/-- R206, R207: RDCHUNK, its failing form and the three fields of the record, of any variant. -/
def Obligations.RdChunkReadsARecord : Prop :=
  decode .command [0x63#8] = .ok (.rdChunk, []) ∧
  ∀ s : State, (s.ch.length ≤ s.arg 0 →
      exec .rdChunk s = .next (s.withInvalid 0x00#8 0 (max s.ch.length 1 - 1))) ∧
    ∀ c, s.ch[s.arg 0]? = some c → c.data.length ≤ 65535 →
      ∃ t, exec .rdChunk s = .next t ∧ t.dout = c.data ∧
        t = { s with
          doutBuf := t.doutBuf
          doutLen := BitVec.ofNat 32 c.data.length
          r := #v[BitVec.ofNat 32 c.typeId.toNat, BitVec.ofNat 32 c.bank.toNat, BitVec.ofNat 32 c.data.length,
            s.r[3]] }.withError 0#8

/-- R208: WRDATA, every failing form in order and the payload replaced, of any variant. -/
def Obligations.WrDataReplacesAPayload : Prop :=
  decode .command [0x64#8] = .ok (.wrData, []) ∧
  ∀ s : State, (s.ch.length ≤ s.arg 0 →
      exec .wrData s = .next (s.withInvalid 0x00#8 0 (max s.ch.length 1 - 1))) ∧
    ∀ c, s.ch[s.arg 0]? = some c →
      (65535 < s.dinLen.toNat → exec .wrData s = .next (s.withInvalid 0xFE#8 0 65535)) ∧
      (s.dinLen.toNat ≤ 65535 →
        exec .wrData s = .next ((s.storing (s.arg 0) c s.din).withError 0#8))

/-- R209 to R212: IMPORT, both failing forms in order, the first palette record overwritten in its first 48 bytes, or
one new record of type 12 and bank 0. -/
def Obligations.ImportWritesTheFirstPalette : Prop :=
  decode .command [0x65#8] = .ok (.importColors, []) ∧
  ∀ s : State, (s.dinLen ≠ 48#32 → exec .importColors s = .next (s.withError 4#8)) ∧
    (s.dinLen = 48#32 →
      (∀ (j : Nat) (c : Chunk), s.ch[j]? = some c → c.typeId = 12#5 → (∀ (k : Nat) (e : Chunk), k < j → s.ch[k]? = some e → e.typeId ≠ 12#5) →
        (c.data.length < 48 → exec .importColors s = .next (s.withError 5#8)) ∧
        (48 ≤ c.data.length → exec .importColors s =
          .next (({ s with r := (s.r.set 0 (BitVec.ofNat 32 j)).set 1 0#32 }.storing j c
            (s.din ++ c.data.drop 48)).withError 0#8))) ∧
      ((∀ e ∈ s.ch, e.typeId ≠ 12#5) → s.ch.length < s.params.maxChunks.toNat →
        exec .importColors s = .next ({ s with
          ch := s.ch ++ [Chunk.mk 12#5 0#3 s.din]
          r := (s.r.set 0 (BitVec.ofNat 32 s.ch.length)).set 1 1#32 }.withError 0#8)))

/-- R213: after an IMPORT that succeeds, GETCOLOR on the record it reports gives every colour of the list, and every
other record is as it was. -/
def Obligations.ImportedColorsReadBack : Prop :=
  ∀ s t : State, s.ch.length < 2 ^ 32 → exec .importColors s = .next t → t.err = 0#8 →
    (∀ (b : Vector Word 6), b[0] = t.r[0] → b[1].toNat ≤ 15 →
      ∃ u, exec .getColor { t with a := b } = .next u ∧ u.err = 0#8 ∧
        u.r[0].toNat = (byteAt s.din (3 * b[1].toNat)).toNat ∧
        u.r[1].toNat = (byteAt s.din (3 * b[1].toNat + 1)).toNat ∧
        u.r[2].toNat = (byteAt s.din (3 * b[1].toNat + 2)).toNat) ∧
    (∀ k, k ≠ t.r[0].toNat → t.ch[k]? = s.ch[k]?)

/-- R211: on a store whose first palette record has 48 bytes, IMPORT leaves the store that sixteen SETCOLOR commands
leave. -/
def Obligations.ImportIsSixteenSetColors : Prop :=
  ∀ (s : State) (j : Nat) (c : Chunk), s.ch.length < 2 ^ 32 → s.dinLen = 48#32 → s.ch[j]? = some c → c.typeId = 12#5 →
    (∀ (k : Nat) (e : Chunk), k < j → s.ch[k]? = some e → e.typeId ≠ 12#5) → 48 ≤ c.data.length →
    ∃ t, exec .importColors s = .next t ∧ t.ch = (sixteenSetColors s j).ch

/-! ## Errors (60_exceptions.md) -/

/-- R12, R226, R229: a command that ends in an error changes the error registers and, for PARSE, `POS`, and nothing
else; and issued again it ends in the same state. -/
def Obligations.FailingCommandChangesOnlyTheErrorRegisters : Prop :=
  ∀ (i : Instr) (s t : State), i.port = .command → exec i s = .next t → t.err ≠ 0#8 →
    t = { s with pos := t.pos }.withErrorsOf t ∧ (i ≠ .parse → t.pos = s.pos) ∧ exec i t = .next t

/-- R230: the kinds of error each command can end with are exactly those of the table, and every command can
complete; a reserved opcode ends with code 1. -/
def Obligations.CommandErrorTable : Prop :=
  (∀ (i : Instr) (code : Byte), i.port = .command → (endsWith i code ↔ code = 0#8 ∨ code ∈ raisable i)) ∧
  (∀ s t : State, s.seq = .issued → reservedOpcode s.cmd.toNat → step s = .next t → t.err = 1#8)

/-- R20, R25, R29, R34, R87: what a command may write. No command writes a host-written register, an input buffer, a
parameter or the model's own fields; each other register or buffer is written only by the commands the table of R87
names for it. -/
def Obligations.CommandsWriteOnlyTheirResults : Prop :=
  ∀ (i : Instr) (s t : State), i.port = .command → exec i s = .next t →
    (t.cmd = s.cmd ∧ t.a = s.a ∧ t.cfgFill = s.cfgFill ∧ t.inLen = s.inLen ∧ t.dinLen = s.dinLen ∧
      t.inBuf = s.inBuf ∧ t.dinBuf = s.dinBuf ∧ t.params = s.params ∧ t.seq = s.seq ∧ t.staging = s.staging ∧
      t.host = s.host ∧ t.bus = s.bus ∧ t.freeCount = s.freeCount) ∧
    (i ≠ .parse → t.pos = s.pos) ∧
    (i ≠ .serialize → t.outBuf = s.outBuf ∧ t.outLen = s.outLen) ∧
    (i ∉ [.getSource, .lookup, .rdChunk] → t.doutBuf = s.doutBuf ∧ t.doutLen = s.doutLen) ∧
    (i ∈ [.setPixel, .setColor, .setTile, .setFlags, .setBody, .setHeaders, .wrData] → t.r = s.r) ∧
    (i ∉ [.getColor, .getSource, .rdChunk, .importColors] → t.r[1] = s.r[1]) ∧
    (i ∉ [.getColor, .getSource, .rdChunk] → t.r[2] = s.r[2]) ∧ t.r[3] = s.r[3] ∧
    (i ∈ [.serialize, .getPixel, .getColor, .getTile, .getFlags, .getSource, .lookup, .hasType, .rdChunk] →
      t.ch = s.ch) ∧
    (i ∈ [.setPixel, .setColor, .setTile, .setFlags, .setBody, .setHeaders, .wrData] →
      ∀ k, k ≠ s.arg 0 → t.ch[k]? = s.ch[k]?)

/-- R21, R33, R205: outside PARSE no command removes, reorders or renames a record; CREATE and IMPORT add at most one,
at the end, and nothing else adds any. -/
def Obligations.RecordsKeepTheirIdentity : Prop :=
  ∀ (i : Instr) (s t : State), i.port = .command → i ≠ .parse → exec i s = .next t →
    ((t.ch.take s.ch.length).map fun c => (c.typeId, c.bank)) = s.ch.map (fun c => (c.typeId, c.bank)) ∧
    (t.ch.length = s.ch.length ∨ (t.ch.length = s.ch.length + 1 ∧ (i = .create ∨ i = .importColors)))

/-- R63, R127, R261, R262: stripping the payloads changes no answer of GETPIXEL, GETTILE and GETFLAGS; a palette whose
stripped payload is shorter than 48 bytes fails GETCOLOR afterwards. -/
def Obligations.StrippingAndTheReadingCommands : Prop :=
  (∀ (i : Instr) (s t : State), i ∈ [.getPixel, .getTile, .getFlags] → exec i s = .next t →
    exec i { s with ch := stripStore s.ch } = .next { t with ch := stripStore t.ch }) ∧
  (∀ (s : State) (c : Chunk), s.ch[s.arg 0]? = some c → c.typeId = 12#5 → s.arg 1 ≤ 15 →
    (stripTZ c.data).length < 48 →
    exec .getColor { s with ch := stripStore s.ch } = .next ({ s with ch := stripStore s.ch }.withError 5#8))

/-! ## The invariant -/

/-- Every step keeps the invariant: canonical memories inside their spaces (R34, R50), records that fit (R23), at most
`MAX_CHUNKS` records (U6), the cursor inside the stream during PARSE (R27), error registers with the values of R221 and
R227. -/
def Obligations.StepKeepsTheInvariant : Prop :=
  ∀ s t : State, s.Inv → step s = .next t → t.Inv

/-- The reset state meets the invariant. -/
def Obligations.ResetMeetsTheInvariant : Prop :=
  State.reset.Inv

/-! ## The host's accesses (10_state.md, 20_memory.md) -/

/-- R28, R29, R33, R61: what the host's register reads return and its register writes do, for every readable and every
writable register of the table; a read changes nothing of the block. (What a read of `CMD` returns is open, U16; the
model draws a free value, log 6.) -/
def Obligations.RegisterWindow : Prop :=
  (∀ (s : State) (rest : List HostAccess) (off : Nat) (v : Word), s.seq = .idle → s.host = .readReg off :: rest →
    (off, v) ∈ [(0x04, s.err.setWidth 32), (0x08, s.errArg.setWidth 32), (0x0C, s.errLo), (0x10, s.errHi),
      (0x14, BitVec.ofNat 32 s.ch.length), (0x18, s.pos), (0x1C, if s.pos = s.inLen then 1#32 else 0#32),
      (0x20, s.cfgFill.setWidth 32), (0x24, s.inLen), (0x28, s.outLen), (0x2C, s.dinLen), (0x30, s.doutLen),
      (0x40, s.a[0]), (0x44, s.a[1]), (0x48, s.a[2]), (0x4C, s.a[3]), (0x50, s.a[4]), (0x54, s.a[5]),
      (0x60, s.r[0]), (0x64, s.r[1]), (0x68, s.r[2]), (0x6C, s.r[3])] →
    step s = .next { s with host := rest, bus := v }) ∧
  (∀ (s : State) (rest : List HostAccess), s.seq = .idle → s.host = .readReg 0x00 :: rest →
    ∃ v, step s = .next { s with host := rest, bus := v, freeCount := s.freeCount + 1 }) ∧
  (∀ (s : State) (rest : List HostAccess) (off : Nat) (v : Word), s.seq = .idle →
    s.host = .writeReg off v :: rest →
    (off = 0x00 → step s = .next { s with host := rest, cmd := v.setWidth 8, seq := .issued }) ∧
    (off = 0x20 → step s = .next { s with host := rest, cfgFill := v.setWidth 8 }) ∧
    (off = 0x24 → step s = .next { s with host := rest, inLen := v }) ∧
    (off = 0x2C → step s = .next { s with host := rest, dinLen := v }) ∧
    (∀ i : Fin 6, off = 0x40 + 4 * i.val → step s = .next { s with host := rest, a := s.a.set i v }))

/-- R50, R51, R60, R61: a one-byte write of the host changes that byte of `IN` or `DIN` and nothing else; a one-byte
read of `OUT` or `DOUT` below its length returns that byte and changes nothing of the block. -/
def Obligations.BufferAccess : Prop :=
  (∀ (s : State) (rest : List HostAccess) (addr : Word) (b : Byte), s.seq = .idle → addr ≠ 0xFFFFFFFF#32 →
    (s.host = .writeIn addr b :: rest → ∃ m, step s = .next { s with host := rest, inBuf := m } ∧
      ∀ x, Mem.read m x = if x = addr.toNat then b else Mem.read s.inBuf x) ∧
    (s.host = .writeDin addr b :: rest → ∃ m, step s = .next { s with host := rest, dinBuf := m } ∧
      ∀ x, Mem.read m x = if x = addr.toNat then b else Mem.read s.dinBuf x)) ∧
  (∀ (s : State) (rest : List HostAccess) (addr : Word), s.seq = .idle →
    (s.host = .readOut addr :: rest → addr < s.outLen →
      step s = .next { s with host := rest, bus := (byteAt s.out addr.toNat).setWidth 32 }) ∧
    (s.host = .readDout addr :: rest → addr < s.doutLen →
      step s = .next { s with host := rest, bus := (byteAt s.dout addr.toNat).setWidth 32 }))

/-- R34, R95, R253: the host's byte writes and its length write leave exactly the bytes in `IN` or `DIN`, and nothing
else changed. -/
def Obligations.HostFillsABuffer : Prop :=
  ∀ (s : State) (bs : Bytes) (rest : List HostAccess), s.seq = .idle → bs.length < 2 ^ 32 →
    (s.host = hostFillIn bs ++ rest → ∃ t, Host.Core.run Sys2Proof.core (bs.length + 1) s = .next t ∧ t.inBytes = bs ∧
      t = { s with host := rest, inBuf := t.inBuf, inLen := BitVec.ofNat 32 bs.length }) ∧
    (s.host = hostFillDin bs ++ rest → ∃ t, Host.Core.run Sys2Proof.core (bs.length + 1) s = .next t ∧ t.din = bs ∧
      t = { s with host := rest, dinBuf := t.dinBuf, dinLen := BitVec.ofNat 32 bs.length })

/-- R30, R86, R95: a written command is its operand writes and the opcode to `CMD`; the step after them runs the
command on those operands. -/
def Obligations.HostIssuesACommand : Prop :=
  ∀ (s : State) (i : Instr) (op : Byte) (ops : List Word) (rest : List HostAccess), s.seq = .idle →
    ops.length ≤ 6 → decode .command [op] = .ok (i, []) → s.host = hostCommand op ops ++ rest →
    ∃ t, Host.Core.run Sys2Proof.core (ops.length + 1) s = .next t ∧ step t = exec i { t with seq := .idle } ∧
      (∀ j : Fin 6, t.a[j] = ops.getD j s.a[j]) ∧
      t = { s with host := rest, a := t.a, cmd := op, seq := .issued }

/-- U6, D28, R132 (log 4, the model's place for the refusal): a command whose operands all pass but whose store, stream
or index list would leave the defined domain is refused by name. -/
def Obligations.BeyondCapacityIsRefused : Prop :=
  ∀ s : State,
    (s.ch.length = s.params.maxChunks.toNat → registered (s.arg 0) = true → s.arg 1 ≤ 7 → s.dinLen.toNat ≤ 65535 →
      exec .create s = .refused (.overCapacity "CREATE")) ∧
    (s.ch.length = s.params.maxChunks.toNat → s.dinLen = 48#32 → (∀ e ∈ s.ch, e.typeId ≠ 12#5) →
      exec .importColors s = .refused (.overCapacity "IMPORT")) ∧
    (∀ fs : List Frame, s.inBytes = fs.flatMap encodeFrame → (∀ f ∈ fs, f.payload.length ≤ 65535) →
      s.params.maxChunks.toNat < fs.length → exec .parse s = .refused (.overCapacity "PARSE")) ∧
    (2 ^ 32 ≤ (s.ch.map fun c => 4 + (stripTZ c.data).length).sum →
      exec .serialize s = .refused (.overCapacity "SERIALIZE")) ∧
    (s.arg 0 ≤ 31 → 2 ^ 32 ≤ 4 * s.ch.countP (fun c => c.typeId.toNat == s.arg 0) →
      exec .lookup s = .refused (.overCapacity "LOOKUP"))
end

