-- ==== Sys2Proof/Laws/Bytes.lean ====
section
/-! SUPPORT. What the byte-sequence operations do: growth, growing writes, trailing zeros, lengths of two bytes. -/

namespace Sys2Proof.Machine

@[simp] theorem length_zeros (n : Nat) : (zeros n).length = n := List.length_replicate

theorem byteAt_eq_zero {d : Bytes} {a : Nat} (h : d.length ≤ a) : byteAt d a = 0#8 := by
  simp [byteAt, List.getD, List.getElem?_eq_none h]

theorem byteAt_eq_getElem {d : Bytes} {a : Nat} (h : a < d.length) : byteAt d a = d[a] := by
  simp [byteAt, List.getD, h]

@[simp] theorem byteAt_append_zeros (d : Bytes) (n a : Nat) : byteAt (d ++ zeros n) a = byteAt d a := by
  rcases Nat.lt_or_ge a d.length with h | h
  · rw [byteAt_eq_getElem h, byteAt_eq_getElem (by simp; omega), List.getElem_append_left h]
  · rw [byteAt_eq_zero h]
    rcases Nat.lt_or_ge a (d ++ zeros n).length with h' | h'
    · rw [byteAt_eq_getElem h', List.getElem_append_right h]; simp [zeros]
    · exact byteAt_eq_zero h'

/-- `Grow(d, i)` never shortens and reaches `i` (R13). -/
@[simp] theorem length_grow (d : Bytes) (i : Nat) : (grow d i).length = max d.length (i + 1) := by
  unfold grow
  split
  · omega
  · rw [List.length_append, length_zeros]; omega

/-- `Grow(d, i)` changes no byte; a byte beyond the end reads 0 before and after (R13, R63). -/
@[simp] theorem byteAt_grow (d : Bytes) (i a : Nat) : byteAt (grow d i) a = byteAt d a := by
  unfold grow
  split
  · rfl
  · exact byteAt_append_zeros d _ a

@[simp] theorem length_growSet (d : Bytes) (a : Nat) (b : Byte) : (growSet d a b).length = max d.length (a + 1) := by
  simp [growSet]

theorem byteAt_set (d : Bytes) (i a : Nat) (b : Byte) (h : i < d.length) :
    byteAt (d.set i b) a = if a = i then b else byteAt d a := by
  simp only [byteAt, List.getD, List.getElem?_set, h, if_true]
  by_cases hx : a = i
  · simp [hx]
  · simp [hx, Ne.symm hx]

/-- A growing write changes the byte it addresses and no other (R64). -/
theorem byteAt_growSet (d : Bytes) (i a : Nat) (b : Byte) :
    byteAt (growSet d i b) a = if a = i then b else byteAt d a := by
  rw [growSet, byteAt_set _ _ _ _ (by simp), byteAt_grow]

@[simp] theorem stripTZ_nil : stripTZ [] = [] := rfl

/-- The sequence is its stripped form followed by zeros only (R14). -/
theorem stripTZ_append_zeros (d : Bytes) : stripTZ d ++ zeros (d.length - (stripTZ d).length) = d := by
  induction d with
  | nil => rfl
  | cons b d ih =>
    simp only [stripTZ]
    split
    · rename_i h
      rw [h] at ih
      simp only [List.nil_append, List.length_nil, Nat.sub_zero] at ih
      split
      · rename_i hb
        simp only [List.nil_append, List.length_nil, Nat.sub_zero, List.length_cons]
        rw [← ih, hb]; simp [zeros, List.replicate_succ]
      · simp only [List.length_cons, List.length_nil, List.cons_append, List.nil_append, Nat.add_sub_cancel]
        rw [ih]
    · rename_i c cs h
      rw [h] at ih
      simp only [List.length_cons, List.cons_append] at ih ⊢
      rw [show d.length + 1 - (cs.length + 1 + 1) = d.length - (cs.length + 1) by omega, ih]

theorem length_stripTZ_le (d : Bytes) : (stripTZ d).length ≤ d.length := by
  have := congrArg List.length (stripTZ_append_zeros d)
  simp only [List.length_append, length_zeros] at this
  omega

/-- What is left is empty or ends in a byte that is not zero (R14). -/
theorem stripTZ_getLast_ne_zero (d : Bytes) (h : stripTZ d ≠ []) : (stripTZ d).getLast h ≠ 0#8 := by
  induction d with
  | nil => exact absurd rfl h
  | cons b d ih =>
    have key : ∀ l (hl : l ≠ []), l = stripTZ (b :: d) → l.getLast hl ≠ 0#8 := by
      intro l hl hl'
      simp only [stripTZ] at hl'
      split at hl'
      · split at hl'
        · exact absurd hl' hl
        · subst hl'; assumption
      · rename_i c cs hc
        subst hl'
        rw [List.getLast_cons (by simp)]
        have hne : stripTZ d ≠ [] := by simp [hc]
        have := ih hne
        simpa [hc] using this
    exact key _ h rfl

/-- Stripping loses nothing for a growth-tolerant read (R127). -/
@[simp] theorem byteAt_stripTZ (d : Bytes) (a : Nat) : byteAt (stripTZ d) a = byteAt d a := by
  conv_rhs => rw [← stripTZ_append_zeros d]
  exact (byteAt_append_zeros _ _ _).symm

/-- A sequence that is empty or ends in a byte other than zero is not changed (R14). -/
theorem stripTZ_eq_self {d : Bytes} (h : ∀ hd : d ≠ [], d.getLast hd ≠ 0#8) : stripTZ d = d := by
  induction d with
  | nil => rfl
  | cons b d ih =>
    cases d with
    | nil => have := h (by simp); simp [stripTZ] at this ⊢; exact this
    | cons c cs =>
      have hd : stripTZ (c :: cs) = c :: cs := ih fun _ => by simpa using h (by simp)
      rw [stripTZ, hd]

@[simp] theorem stripTZ_idem (d : Bytes) : stripTZ (stripTZ d) = stripTZ d :=
  stripTZ_eq_self fun h => stripTZ_getLast_ne_zero d h

@[simp] theorem length_encodeLe16 (n : Nat) : (encodeLe16 n).length = 2 := rfl

@[simp] theorem length_encodeLe32 (n : Nat) : (encodeLe32 n).length = 4 := rfl

/-- A 16-bit length survives its two bytes (R52). -/
theorem le16_encode {n : Nat} (h : n ≤ 65535) : le16 (BitVec.ofNat 8 n) (BitVec.ofNat 8 (n / 256)) = n := by
  simp only [le16, BitVec.toNat_ofNat]
  omega

theorem le16_le (lo hi : Byte) : le16 lo hi ≤ 65535 := by
  have := lo.isLt; have := hi.isLt
  simp only [le16]; omega

end Sys2Proof.Machine
end

