-- ==== Sys2Proof/Laws/Checks.lean ====
section
/-! SUPPORT. What the checks and the shape of a command do: when each operand form passes and what it yields. -/

namespace Sys2Proof.Machine

/-- A bind of checks passes exactly when both parts pass. -/
theorem bind_ok {α β : Type} {x : Except CmdError α} {f : α → Except CmdError β} {b : β} :
    (x >>= f) = .ok b ↔ ∃ a, x = .ok a ∧ f a = .ok b := by
  cases x with
  | error e => simp [bind, Except.bind]
  | ok a => simp [bind, Except.bind]

@[simp] theorem pure_ok {α : Type} {a b : α} : (pure a : Except CmdError α) = .ok b ↔ a = b := by
  simp [pure, Except.pure]

@[simp] theorem attempt_error {α : Type} (s : State) (e : CmdError) (k : α → StepResult) :
    attempt s (.error e) k = .next (s.raise e) := rfl

@[simp] theorem attempt_ok {α : Type} (s : State) (x : α) (k : α → StepResult) : attempt s (.ok x) k = k x := rfl

/-- A command either raises the first error its checks give, or has the effect on what they yield. -/
theorem attempt_cases {α : Type} (s : State) (c : Except CmdError α) (k : α → StepResult) :
    (∃ e, c = .error e ∧ attempt s c k = .next (s.raise e)) ∨ ∃ x, c = .ok x ∧ attempt s c k = k x := by
  cases c with
  | error e => exact .inl ⟨e, rfl, rfl⟩
  | ok x => exact .inr ⟨x, rfl, rfl⟩

@[simp] theorem checkRange_ok {arg : Byte} {v lo hi : Nat} {u : Unit} :
    checkRange arg v lo hi = .ok u ↔ lo ≤ v ∧ v ≤ hi := by
  unfold checkRange
  split
  · simp; omega
  · simp; omega

theorem checkRange_pass {arg : Byte} {v lo hi : Nat} (h : lo ≤ v ∧ v ≤ hi) : checkRange arg v lo hi = .ok () :=
  checkRange_ok.2 h

theorem checkRange_fail {arg : Byte} {v lo hi : Nat} (h : ¬(lo ≤ v ∧ v ≤ hi)) :
    checkRange arg v lo hi = .error (badArgument arg lo hi) := by
  unfold checkRange
  rw [if_pos (by omega)]

@[simp] theorem checkPayload_ok {n : Nat} {u : Unit} : checkPayload n = .ok u ↔ n ≤ 65535 := by
  simp [checkPayload]

@[simp] theorem checkPaletteSize_ok {d : Bytes} {u : Unit} : checkPaletteSize d = .ok u ↔ 48 ≤ d.length := by
  unfold checkPaletteSize
  by_cases h : d.length < 48
  · simp [h]
  · simp [h]; omega

@[simp] theorem State.selectAny_ok {s : State} {c : Chunk} : s.selectAny = .ok c ↔ s.ch[s.arg 0]? = some c := by
  unfold State.selectAny
  cases s.ch[s.arg 0]? <;> simp

/-- `Select` passes exactly on a record whose variant the class accepts (R16). -/
@[simp] theorem State.select_ok {s : State} {cls : CodecClass} {c : Chunk} :
    s.select cls = .ok c ↔ s.selects cls c := by
  unfold State.select State.selects
  simp only [bind_ok, State.selectAny_ok]
  constructor
  · rintro ⟨d, hd, h⟩
    split at h
    · rename_i ha; cases h; exact ⟨hd, ha⟩
    · cases h
  · rintro ⟨hc, ha⟩
    exact ⟨c, hc, by simp [ha]⟩

/-- A selector at or above `CHN` is `InvalidArgument` with the range 0..max(CHN,1)-1, whatever the class (R16, R207). -/
theorem State.select_none {s : State} {cls : CodecClass} (h : s.ch[s.arg 0]? = none) :
    s.select cls = .error (badArgument 0x00#8 0 (max s.ch.length 1 - 1)) := by
  simp [State.select, State.selectAny, h, bind, Except.bind]

/-- A record of a variant the class does not accept is `InvalidArgument` with argument 0xFD (R16, R227). -/
theorem State.select_wrong {s : State} {cls : CodecClass} {c : Chunk} (h : s.ch[s.arg 0]? = some c)
    (hv : cls.accepts (variant c.typeId) = false) :
    s.select cls = .error (badArgument argType cls.typeRange.1 cls.typeRange.2) := by
  simp [State.select, State.selectAny, h, bind, Except.bind, hv]

/-- The sprite numbers of the two pixel variants (R136). -/
@[simp] theorem spriteNumber_ok {v : Variant} {id n : Nat} :
    spriteNumber v id = .ok n ↔ (v = .tiles ∧ id ≤ 255 ∧ n = id) ∨ (v ≠ .tiles ∧ 256 ≤ id ∧ id ≤ 511 ∧ n + 256 = id) := by
  unfold spriteNumber
  split
  · rename_i h
    simp only [bind_ok, checkRange_ok, pure_ok, h, Nat.zero_le, true_and, exists_const, ne_eq, not_true, false_and,
      or_false]
    exact and_congr_right fun _ => eq_comm
  · rename_i h
    simp only [bind_ok, checkRange_ok, pure_ok, h, false_and, ne_eq, not_false_eq_true, true_and, false_or]
    constructor
    · rintro ⟨_, h1, h2⟩; omega
    · rintro ⟨h1, h2, h3⟩; exact ⟨(), ⟨h1, h2⟩, by omega⟩

/-- When `PixelAddr` passes and what it yields (R136). -/
theorem State.pixelAddr_ok {s : State} {t : PixelTarget} :
    s.pixelAddr = .ok t ↔ s.selects .pixels t.chunk ∧
      (∃ n, spriteNumber (variant t.chunk.typeId) (s.arg 1) = .ok n ∧ t.addr = pixelByte n (s.arg 2) (s.arg 3)) ∧
      s.arg 2 ≤ 7 ∧ s.arg 3 ≤ 7 ∧ t.odd = (s.arg 2 % 2 == 1) := by
  unfold State.pixelAddr
  simp only [bind_ok, State.select_ok, checkRange_ok, pure_ok, Nat.zero_le, true_and, exists_const]
  constructor
  · rintro ⟨c, hc, n, hn, hx, hy, rfl⟩
    exact ⟨hc, ⟨n, hn, rfl⟩, hx, hy, rfl⟩
  · rintro ⟨hc, ⟨n, hn, ha⟩, hx, hy, ho⟩
    exact ⟨t.chunk, hc, n, hn, hx, hy, by cases t; simp_all⟩

/-- When SETPIXEL's operands pass (R137). -/
theorem State.setPixelOperands_ok {s : State} {t : PixelTarget} :
    s.setPixelOperands = .ok t ↔ s.pixelAddr = .ok t ∧ s.arg 4 ≤ 15 := by
  unfold State.setPixelOperands
  simp only [bind_ok, checkRange_ok, pure_ok, Nat.zero_le, true_and, exists_const]
  constructor
  · rintro ⟨a, ha, h, rfl⟩; exact ⟨ha, h⟩
  · rintro ⟨ha, h⟩; exact ⟨t, ha, h, rfl⟩

/-- When GETCOLOR's operands pass (R152). -/
theorem State.getColorOperands_ok {s : State} {c : Chunk} :
    s.getColorOperands = .ok c ↔ s.selects .palette c ∧ s.arg 1 ≤ 15 ∧ 48 ≤ c.data.length := by
  unfold State.getColorOperands
  simp only [bind_ok, State.select_ok, checkRange_ok, checkPaletteSize_ok, pure_ok, Nat.zero_le, true_and, exists_const]
  constructor
  · rintro ⟨a, ha, h, hl, rfl⟩; exact ⟨ha, h, hl⟩
  · rintro ⟨ha, h, hl⟩; exact ⟨c, ha, h, hl, rfl⟩

/-- When a channel's check passes (R153). -/
@[simp] theorem State.checkChannel_ok {s : State} {arg : Byte} {j : Nat} {i : Fin 6} {u : Unit} :
    s.checkChannel arg j i = .ok u ↔ (s.channelSupplied j = true → s.arg i ≤ 255) := by
  unfold State.checkChannel
  split <;> rename_i h <;> simp [h]

/-- When SETCOLOR's operands pass (R153). -/
theorem State.setColorOperands_ok {s : State} {c : Chunk} :
    s.setColorOperands = .ok c ↔ s.selects .palette c ∧ s.arg 1 ≤ 15 ∧ s.arg 2 ≤ 7 ∧
      (s.channelSupplied 0 = true → s.arg 3 ≤ 255) ∧ (s.channelSupplied 1 = true → s.arg 4 ≤ 255) ∧
      (s.channelSupplied 2 = true → s.arg 5 ≤ 255) ∧ 48 ≤ c.data.length := by
  unfold State.setColorOperands
  simp only [bind_ok, State.select_ok, checkRange_ok, State.checkChannel_ok, checkPaletteSize_ok, pure_ok, Nat.zero_le,
    true_and, exists_const]
  constructor
  · rintro ⟨a, ha, h1, h2, h3, h4, h5, hl, rfl⟩; exact ⟨ha, h1, h2, h3, h4, h5, hl⟩
  · rintro ⟨ha, h1, h2, h3, h4, h5, hl⟩; exact ⟨c, ha, h1, h2, h3, h4, h5, hl, rfl⟩

/-- When GETTILE's operands pass (R162). -/
theorem State.getTileOperands_ok {s : State} {c : Chunk} :
    s.getTileOperands = .ok c ↔ s.selects .map c ∧ s.arg 1 ≤ 239 ∧ s.arg 2 ≤ 239 := by
  unfold State.getTileOperands
  simp only [bind_ok, State.select_ok, checkRange_ok, pure_ok, Nat.zero_le, true_and, exists_const]
  constructor
  · rintro ⟨a, ha, h1, h2, rfl⟩; exact ⟨ha, h1, h2⟩
  · rintro ⟨ha, h1, h2⟩; exact ⟨c, ha, h1, h2, rfl⟩

/-- When SETTILE's operands pass (R161). -/
theorem State.setTileOperands_ok {s : State} {c : Chunk} :
    s.setTileOperands = .ok c ↔ s.getTileOperands = .ok c ∧ s.arg 3 ≤ 255 := by
  unfold State.setTileOperands
  simp only [bind_ok, checkRange_ok, pure_ok, Nat.zero_le, true_and, exists_const]
  constructor
  · rintro ⟨a, ha, h1, rfl⟩; exact ⟨ha, h1⟩
  · rintro ⟨ha, h1⟩; exact ⟨c, ha, h1, rfl⟩

/-- When GETFLAGS's operands pass (R172). -/
theorem State.getFlagsOperands_ok {s : State} {c : Chunk} :
    s.getFlagsOperands = .ok c ↔ s.selects .flags c ∧ s.arg 1 ≤ 511 := by
  unfold State.getFlagsOperands
  simp only [bind_ok, State.select_ok, checkRange_ok, pure_ok, Nat.zero_le, true_and, exists_const]
  constructor
  · rintro ⟨a, ha, h1, rfl⟩; exact ⟨ha, h1⟩
  · rintro ⟨ha, h1⟩; exact ⟨c, ha, h1, rfl⟩

/-- When SETFLAGS's operands pass (R171). -/
theorem State.setFlagsOperands_ok {s : State} {c : Chunk} :
    s.setFlagsOperands = .ok c ↔ s.getFlagsOperands = .ok c ∧ s.arg 2 ≤ 8 := by
  unfold State.setFlagsOperands
  simp only [bind_ok, checkRange_ok, pure_ok, Nat.zero_le, true_and, exists_const]
  constructor
  · rintro ⟨a, ha, h1, rfl⟩; exact ⟨ha, h1⟩
  · rintro ⟨ha, h1⟩; exact ⟨c, ha, h1, rfl⟩

/-- When a type operand passes (R200, R202). -/
theorem State.typeOperand_ok {s : State} {t : Nat} : s.typeOperand = .ok t ↔ t = s.arg 0 ∧ s.arg 0 ≤ 31 := by
  unfold State.typeOperand
  simp only [bind_ok, checkRange_ok, pure_ok, Nat.zero_le, true_and, exists_const]
  constructor
  · rintro ⟨h, rfl⟩; exact ⟨rfl, h⟩
  · rintro ⟨rfl, h⟩; exact ⟨h, rfl⟩

/-- When CREATE's operands pass and the record they make (R204). -/
theorem State.createOperands_ok {s : State} {c : Chunk} :
    s.createOperands = .ok c ↔ registered (s.arg 0) = true ∧ s.arg 1 ≤ 7 ∧ s.dinLen.toNat ≤ 65535 ∧
      c = { typeId := BitVec.ofNat 5 (s.arg 0), bank := BitVec.ofNat 3 (s.arg 1), data := s.din } := by
  unfold State.createOperands
  split
  · rename_i h
    simp only [bind_ok, checkRange_ok, checkPayload_ok, pure_ok, Nat.zero_le, true_and, exists_const, h]
    constructor
    · rintro ⟨h1, h2, rfl⟩; exact ⟨h1, h2, rfl⟩
    · rintro ⟨h1, h2, rfl⟩; exact ⟨h1, h2, rfl⟩
  · rename_i h
    simp [h]

/-- When WRDATA's operands pass (R208). -/
theorem State.wrDataOperands_ok {s : State} {c : Chunk} :
    s.wrDataOperands = .ok c ↔ s.ch[s.arg 0]? = some c ∧ s.dinLen.toNat ≤ 65535 := by
  unfold State.wrDataOperands
  simp only [bind_ok, State.selectAny_ok, checkPayload_ok, pure_ok, exists_const]
  constructor
  · rintro ⟨a, ha, h1, rfl⟩; exact ⟨ha, h1⟩
  · rintro ⟨ha, h1⟩; exact ⟨c, ha, h1, rfl⟩

/-- When SETBODY's operands pass and the payload they make (R188). -/
theorem State.setBodyOperands_ok {s : State} {d : Bytes} :
    s.setBodyOperands = .ok d ↔ ∃ c, s.selects .code c ∧ d = formatSource (parseSource c.data).1 s.din ∧
      d.length ≤ 65535 := by
  unfold State.setBodyOperands
  simp only [bind_ok, State.select_ok, checkPayload_ok, pure_ok, exists_const]
  constructor
  · rintro ⟨c, hc, h, rfl⟩; exact ⟨c, hc, rfl, h⟩
  · rintro ⟨c, hc, rfl, h⟩; exact ⟨c, hc, h, rfl⟩

/-- When the header list in `DIN` is well formed, and the mapping it folds into (R189). -/
theorem State.dinHeaders_ok {s : State} {hs : List Header} :
    s.dinHeaders = .ok hs ↔ ∃ l, decodeHeaders s.din.length s.din = some l ∧ hs = headerMap l := by
  unfold State.dinHeaders
  cases decodeHeaders s.din.length s.din <;> simp [eq_comm]

/-- When SETHEADERS's operands pass and the payload they make (R190). -/
theorem State.setHeadersOperands_ok {s : State} {d : Bytes} :
    s.setHeadersOperands = .ok d ↔ ∃ c hs, s.selects .code c ∧ s.dinHeaders = .ok hs ∧
      d = formatSource hs (parseSource c.data).2 ∧ d.length ≤ 65535 := by
  unfold State.setHeadersOperands
  simp only [bind_ok, State.select_ok, checkPayload_ok, pure_ok, exists_const]
  constructor
  · rintro ⟨c, hc, hs, hh, h, rfl⟩; exact ⟨c, hs, hc, hh, rfl, h⟩
  · rintro ⟨c, hs, hc, hh, rfl, h⟩; exact ⟨c, hc, hs, hh, h, rfl⟩

/-- The first palette: an index, its record of type 12, and no record of type 12 before it (R210). -/
theorem firstPalette_some {cs : List Chunk} {j : Nat} {c : Chunk} :
    firstPalette cs = some (j, c) ↔
      cs[j]? = some c ∧ c.typeId = 12#5 ∧ ∀ k < j, ∀ d, cs[k]? = some d → d.typeId ≠ 12#5 := by
  induction cs generalizing j with
  | nil => simp [firstPalette]
  | cons e cs ih =>
    simp only [firstPalette]
    split
    · rename_i he
      constructor
      · rintro h; cases h; simp [he]
      · rintro ⟨h1, h2, h3⟩
        cases j with
        | zero => simp_all
        | succ j => exact absurd he (h3 0 (by omega) e (by simp))
    · rename_i he
      simp only [Option.map_eq_some_iff, Prod.exists, Prod.mk.injEq]
      constructor
      · rintro ⟨i, d, hi, rfl, rfl⟩
        obtain ⟨h1, h2, h3⟩ := ih.1 hi
        refine ⟨by simpa using h1, h2, fun k hk d hd => ?_⟩
        cases k with
        | zero => simp at hd; exact hd ▸ he
        | succ k => exact h3 k (by omega) d (by simpa using hd)
      · rintro ⟨h1, h2, h3⟩
        cases j with
        | zero => simp at h1; exact absurd (h1 ▸ h2) he
        | succ j =>
          exact ⟨j, c, ih.2 ⟨by simpa using h1, h2, fun k hk d hd => h3 (k + 1) (by omega) d (by simpa using hd)⟩, rfl, rfl⟩

/-- There is no first palette exactly when no record has type 12 (R210). -/
theorem firstPalette_none {cs : List Chunk} : firstPalette cs = none ↔ ∀ c ∈ cs, c.typeId ≠ 12#5 := by
  induction cs with
  | nil => simp [firstPalette]
  | cons e cs ih =>
    simp only [firstPalette]
    split
    · rename_i he; simp [he]
    · rename_i he; simp [he, ih]

/-- When IMPORT's checks pass (R209, R211). -/
theorem State.importOperands_ok {s : State} {o : Option (Nat × Chunk)} :
    s.importOperands = .ok o ↔ s.dinLen.toNat = 48 ∧ o = firstPalette s.ch ∧ ∀ j c, o = some (j, c) → 48 ≤ c.data.length := by
  unfold State.importOperands
  by_cases h' : s.dinLen.toNat = 48
  swap
  · simp [h']
  · rw [if_neg (by simp [h'])]
    cases hp : firstPalette s.ch with
    | none =>
      simp only [Except.ok.injEq, h', true_and]
      exact ⟨fun h => ⟨h.symm, by rintro j c rfl; cases h⟩, fun h => h.1.symm⟩
    | some p =>
      obtain ⟨j, c⟩ := p
      simp only [bind_ok, checkPaletteSize_ok, pure_ok, exists_const, h', true_and]
      constructor
      · rintro ⟨h1, rfl⟩; exact ⟨rfl, fun _ _ h => by cases h; exact h1⟩
      · rintro ⟨rfl, h2⟩; exact ⟨h2 j c rfl, rfl⟩

/-- The channels SETCOLOR takes as supplied after its expansion are those that were written, and a mask made so is in
range (R97 (b), R153). -/
theorem colorMask_supplied (r g b : Option Word) :
    (colorMask r g b).getLsbD 0 = r.isSome ∧ (colorMask r g b).getLsbD 1 = g.isSome ∧
      (colorMask r g b).getLsbD 2 = b.isSome ∧ (colorMask r g b).toNat ≤ 7 := by
  cases r <;> cases g <;> cases b <;> simp [colorMask]

end Sys2Proof.Machine
end

