-- ==== Sys2Proof/Laws/Decoding.lean ====
section
/-! SUPPORT. What fetching and decoding a frame do, and what one pass and the whole loop of PARSE do. -/

namespace Sys2Proof

open Sys2Proof.Machine

/-- A frame is taken exactly when a header and the announced payload are there (R75, R84), and its fields are those of
R77, R79 and R83. -/
theorem takeFrame_ok {bs rest : Bytes} {f : Frame} :
    takeFrame bs = .ok (f, rest) ↔ ∃ hb b1 b2, bs = hb :: b1 :: b2 :: f.reserved :: (f.payload ++ rest) ∧
      f.payload.length = le16 b1 b2 ∧ f.typeId = hb.extractLsb' 0 5 ∧ f.bank = hb.extractLsb' 5 3 := by
  constructor
  · intro h
    match bs, h with
    | hb :: b1 :: b2 :: b3 :: body, h =>
      simp only [takeFrame] at h
      split at h
      · cases h
      · rename_i hl
        cases h
        exact ⟨hb, b1, b2, by simp, by simp; omega, rfl, rfl⟩
  · rintro ⟨hb, b1, b2, rfl, hl, ht, hk⟩
    simp only [takeFrame]
    rw [if_neg (by simp; omega)]
    cases f
    simp_all

/-- The payload of a taken frame fits 16 bits (R79). -/
theorem takeFrame_payload_le {bs rest : Bytes} {f : Frame} (h : takeFrame bs = .ok (f, rest)) :
    f.payload.length ≤ 65535 := by
  obtain ⟨_, b1, b2, _, hl, _⟩ := takeFrame_ok.1 h
  exact hl ▸ le16_le b1 b2

/-- A taken frame is `4 + length` bytes long (R84). -/
theorem takeFrame_length {bs rest : Bytes} {f : Frame} (h : takeFrame bs = .ok (f, rest)) :
    bs.length = 4 + f.payload.length + rest.length := by
  obtain ⟨_, b1, b2, rfl, _⟩ := takeFrame_ok.1 h
  simp; omega

/-- The fields of a header byte in the layout of R83. -/
theorem headerByte_fields (bank : BitVec 3) (t : BitVec 5) :
    (bank ++ t : BitVec 8).extractLsb' 0 5 = t ∧ (bank ++ t : BitVec 8).extractLsb' 5 3 = bank := by
  revert bank t; decide

@[simp] theorem Frame.form_toInstr (f : Frame) : f.toInstr.form = .frame f := by
  obtain ⟨t, bank, reserved, payload⟩ := f
  have ht : ∀ t : BitVec 5, (Frame.toInstr ⟨t, bank, reserved, payload⟩).form = .frame ⟨t, bank, reserved, payload⟩ := by
    intro t
    obtain ⟨n, hn⟩ : ∃ n : Fin 32, t = BitVec.ofFin n := ⟨t.toFin, rfl⟩
    subst hn
    fin_cases n <;> rfl
  exact ht t

end Sys2Proof

namespace Sys2Proof.Machine

theorem parseFrames_nil (fuel p : Nat) (staged : List Chunk) :
    parseFrames fuel [] p staged = .complete staged p := by
  unfold parseFrames; rfl

theorem parseFrames_cons (fuel : Nat) (b : Byte) (bs : Bytes) (p : Nat) (staged : List Chunk) :
    parseFrames (fuel + 1) (b :: bs) p staged =
      match takeFrame (b :: bs) with
      | .error _ => .truncated p
      | .ok (f, rest) => parseFrames fuel rest (p + (4 + f.payload.length)) (staged ++ [frameRecord f]) := by
  rw [parseFrames]
  first
    | done
    | cases takeFrame (b :: bs) <;> rfl

/-- The loop of R110 from any staging list: it completes at the end of the bytes with every record appended fitting 16
bits, or it stops at a frame boundary before the end. -/
theorem parseFrames_cases (fuel : Nat) (bs : Bytes) (p : Nat) (staged : List Chunk) (hf : bs.length ≤ fuel) :
    (∃ more, storeFits more ∧ parseFrames fuel bs p staged = .complete (staged ++ more) (p + bs.length)) ∨
      ∃ q, p ≤ q ∧ q < p + bs.length ∧ parseFrames fuel bs p staged = .truncated q := by
  induction fuel generalizing bs p staged with
  | zero =>
    have : bs = [] := List.length_eq_zero_iff.1 (by omega)
    subst this
    exact .inl ⟨[], by simp [storeFits], by simp [parseFrames_nil]⟩
  | succ fuel ih =>
    cases bs with
    | nil => exact .inl ⟨[], by simp [storeFits], by simp [parseFrames_nil]⟩
    | cons b bs =>
      rw [parseFrames_cons]
      split
      · exact .inr ⟨p, Nat.le_refl p, by simp, rfl⟩
      · rename_i f rest h
        have hlen := takeFrame_length h
        have hpay := takeFrame_payload_le h
        simp only [List.length_cons] at hf hlen ⊢
        rcases ih rest (p + (4 + f.payload.length)) (staged ++ [frameRecord f]) (by omega) with
          ⟨more, hfit, he⟩ | ⟨q, h1, h2, he⟩
        · refine .inl ⟨frameRecord f :: more, ?_, ?_⟩
          · intro c hc
            rcases List.mem_cons.1 hc with rfl | hc
            · exact hpay
            · exact hfit c hc
          · rw [he]; simp only [List.append_assoc, List.singleton_append, ParseEnd.complete.injEq, true_and]; omega
        · exact .inr ⟨q, by omega, by omega, he⟩

/-- PARSE's outcome (R110, R112, R113): a truncation, a commit, or a store past `MAX_CHUNKS`. -/
theorem execParse_cases (s : State) :
    (∃ p, parseStream s.inBytes = .truncated p ∧
      execParse s = .next ({ s with pos := BitVec.ofNat 32 p }.raise .truncatedInput)) ∨
    (∃ staged p, parseStream s.inBytes = .complete staged p ∧ staged.length ≤ s.params.maxChunks.toNat ∧
      execParse s = .next
        ({ s with ch := staged, pos := BitVec.ofNat 32 p }.setR 0 (BitVec.ofNat 32 staged.length)).complete) ∨
    (∃ staged p, parseStream s.inBytes = .complete staged p ∧ s.params.maxChunks.toNat < staged.length ∧
      execParse s = .refused (.overCapacity "PARSE")) := by
  unfold execParse
  cases h : parseStream s.inBytes with
  | truncated p => exact .inl ⟨p, rfl, rfl⟩
  | complete staged p =>
    by_cases hc : staged.length ≤ s.params.maxChunks.toNat
    · exact .inr (.inl ⟨staged, p, rfl, hc, by simp only [if_pos hc]⟩)
    · exact .inr (.inr ⟨staged, p, rfl, by omega, by simp only [if_neg hc]⟩)

end Sys2Proof.Machine
end

