-- ==== Sys2Proof/Laws/Memory.lean ====
section
/-! SUPPORT. What the byte-space operations do: reads after writes, and the canonical form every operation keeps. -/

namespace Sys2Proof.Machine

@[simp] theorem Mem.read_nil (a : Nat) : Mem.read [] a = 0#8 := rfl

theorem Mem.read_cons (x : Nat) (b : Byte) (m : Mem) (a : Nat) :
    Mem.read ((x, b) :: m) a = if x = a then b else Mem.read m a := rfl

/-- An address no cell names reads as 0. -/
theorem Mem.read_eq_zero_of_forall_ne {m : Mem} {a : Nat} (h : ∀ c ∈ m, c.1 ≠ a) : Mem.read m a = 0#8 := by
  induction m with
  | nil => rfl
  | cons c m ih =>
    obtain ⟨x, b⟩ := c
    rw [Mem.read_cons, if_neg (h (x, b) (by simp))]
    exact ih fun c hc => h c (by simp [hc])

theorem Mem.read_erase (m : Mem) (a x : Nat) :
    Mem.read (Mem.erase m a) x = if x = a then 0#8 else Mem.read m x := by
  induction m with
  | nil => simp [Mem.erase]
  | cons c m ih =>
    obtain ⟨y, b⟩ := c
    have ih' : Mem.read (m.filter fun c => c.1 != a) x = if x = a then 0#8 else Mem.read m x := ih
    by_cases hy : y = a
    · simp only [Mem.erase, List.filter_cons, hy, bne_self_eq_false, Bool.false_eq_true, if_false, ih', Mem.read_cons]
      by_cases hx : x = a
      · simp [hx]
      · simp [hx, Ne.symm hx]
    · simp only [Mem.erase, List.filter_cons, bne_iff_ne, ne_eq, hy, not_false_eq_true, if_true, Mem.read_cons, ih']
      by_cases hx : x = a
      · have : y ≠ x := by omega
        simp [hx, hy]
      · simp [hx]

theorem Mem.read_insert (m : Mem) (a x : Nat) (b : Byte) :
    Mem.read (Mem.insert m a b) x = if x = a then b else Mem.read m x := by
  induction m with
  | nil => simp [Mem.insert, Mem.read, eq_comm]
  | cons c m ih =>
    obtain ⟨y, d⟩ := c
    simp only [Mem.insert]
    split
    · simp only [Mem.read_cons]
      by_cases hx : x = a
      · simp [hx]
      · simp [hx, Ne.symm hx]
    · split
      · rename_i _ h
        subst h
        by_cases hx : x = a
        · simp [hx, Mem.read_cons]
        · simp [hx, Mem.read_cons, Ne.symm hx]
      · rename_i _ h
        simp only [Mem.read_cons, ih]
        by_cases hx : x = a
        · simp [hx, Ne.symm h]
        · simp [hx]

/-- A read after a one-byte write: the byte written at its address, every other byte as before. -/
theorem Mem.read_write (m : Mem) (a x : Nat) (b : Byte) :
    Mem.read (Mem.write m a b) x = if x = a then b else Mem.read m x := by
  unfold Mem.write
  split
  · rename_i h; simp [Mem.read_erase, h]
  · exact Mem.read_insert m a x b

theorem Mem.mem_insert {m : Mem} {a : Nat} {b : Byte} {c : Host.Cell} (h : c ∈ Mem.insert m a b) :
    c = (a, b) ∨ c ∈ m := by
  induction m with
  | nil => simpa [Mem.insert] using h
  | cons e m ih =>
    obtain ⟨y, d⟩ := e
    simp only [Mem.insert] at h
    split at h
    · simpa using h
    · split at h
      · rcases List.mem_cons.1 h with h | h
        · exact .inl h
        · exact .inr (List.mem_cons_of_mem _ h)
      · rcases List.mem_cons.1 h with h | h
        · exact .inr (h ▸ List.mem_cons_self)
        · exact (ih h).imp id (List.mem_cons_of_mem _)

theorem Mem.mem_write {m : Mem} {a : Nat} {b : Byte} {c : Host.Cell} (h : c ∈ Mem.write m a b) :
    c = (a, b) ∨ c ∈ m := by
  unfold Mem.write at h
  split at h
  · exact .inr (List.mem_filter.1 h).1
  · exact Mem.mem_insert h

@[simp] theorem Mem.wf_nil : Mem.wf [] := ⟨List.Pairwise.nil, by simp⟩

theorem Mem.wf_erase {m : Mem} (a : Nat) (h : Mem.wf m) : Mem.wf (Mem.erase m a) :=
  ⟨h.1.filter _, fun c hc => h.2 c (List.mem_filter.1 hc).1⟩

theorem Mem.wf_insert {m : Mem} (a : Nat) {b : Byte} (hb : b ≠ 0#8) (h : Mem.wf m) : Mem.wf (Mem.insert m a b) := by
  refine ⟨?_, fun c hc => ?_⟩
  · replace h := h.1
    induction m with
    | nil => simp [Mem.insert]
    | cons e m ih =>
      obtain ⟨y, d⟩ := e
      obtain ⟨hlt, hm⟩ := List.pairwise_cons.1 h
      simp only [Mem.insert]
      split
      · rename_i hay
        refine List.pairwise_cons.2 ⟨fun c hc => ?_, h⟩
        rcases List.mem_cons.1 hc with rfl | hc
        · exact hay
        · exact Nat.lt_trans hay (hlt c hc)
      · split
        · rename_i _ hay
          exact List.pairwise_cons.2 ⟨fun c hc => hay ▸ hlt c hc, hm⟩
        · refine List.pairwise_cons.2 ⟨fun c hc => ?_, ih hm⟩
          rcases Mem.mem_insert hc with rfl | hc
          · simp only; omega
          · exact hlt c hc
  · rcases Mem.mem_insert hc with rfl | hc
    · exact hb
    · exact h.2 c hc

/-- A one-byte write keeps the canonical form. -/
theorem Mem.wf_write {m : Mem} (a : Nat) (b : Byte) (h : Mem.wf m) : Mem.wf (Mem.write m a b) := by
  unfold Mem.write
  split
  · exact Mem.wf_erase a h
  · rename_i hb; exact Mem.wf_insert a hb h

/-- A write of many bytes keeps the canonical form. -/
theorem Mem.wf_writeBytes {m : Mem} (bs : Bytes) (a : Nat) (h : Mem.wf m) : Mem.wf (Mem.writeBytes m a bs) := by
  induction bs generalizing m a with
  | nil => exact h
  | cons b bs ih => exact ih (a + 1) (Mem.wf_write a b h)

theorem Mem.mem_ofBytesFrom {bs : Bytes} {a : Nat} {c : Host.Cell} (h : c ∈ Mem.ofBytesFrom a bs) :
    a ≤ c.1 ∧ c.1 < a + bs.length ∧ c.2 ≠ 0#8 := by
  induction bs generalizing a with
  | nil => simp [Mem.ofBytesFrom] at h
  | cons b bs ih =>
    simp only [Mem.ofBytesFrom] at h
    split at h
    · have := ih h
      simp only [List.length_cons]
      exact ⟨by omega, by omega, this.2.2⟩
    · rename_i hb
      rcases List.mem_cons.1 h with rfl | h
      · exact ⟨Nat.le_refl _, by simp, hb⟩
      · have := ih h
        simp only [List.length_cons]
        exact ⟨by omega, by omega, this.2.2⟩

theorem Mem.wf_ofBytesFrom (bs : Bytes) (a : Nat) : Mem.wf (Mem.ofBytesFrom a bs) := by
  refine ⟨?_, fun c hc => (Mem.mem_ofBytesFrom hc).2.2⟩
  induction bs generalizing a with
  | nil => simp [Mem.ofBytesFrom]
  | cons b bs ih =>
    simp only [Mem.ofBytesFrom]
    split
    · exact ih (a + 1)
    · exact List.pairwise_cons.2 ⟨fun c hc => (Mem.mem_ofBytesFrom hc).1, ih (a + 1)⟩

/-- A space made from bytes is canonical. -/
theorem Mem.wf_ofBytes (bs : Bytes) : Mem.wf (Mem.ofBytes bs) := Mem.wf_ofBytesFrom bs 0

theorem Mem.read_ofBytesFrom (bs : Bytes) (a i : Nat) : Mem.read (Mem.ofBytesFrom a bs) (a + i) = bs.getD i 0#8 := by
  induction bs generalizing a i with
  | nil => rfl
  | cons b bs ih =>
    cases i with
    | zero =>
      simp only [Mem.ofBytesFrom]
      split
      · rename_i hb
        rw [Mem.read_eq_zero_of_forall_ne fun c hc => ?_]
        · simp [hb]
        · have := (Mem.mem_ofBytesFrom hc).1; omega
      · simp [Mem.read_cons]
    | succ i =>
      have h : a + (i + 1) = (a + 1) + i := by omega
      simp only [Mem.ofBytesFrom]
      split
      · rw [h, ih]; simp
      · rw [Mem.read_cons, if_neg (by omega), h, ih]; simp

/-- A space made from bytes reads as those bytes, and 0 beyond them. -/
theorem Mem.read_ofBytes (bs : Bytes) (i : Nat) : Mem.read (Mem.ofBytes bs) i = bs.getD i 0#8 := by
  have := Mem.read_ofBytesFrom bs 0 i
  rwa [Nat.zero_add] at this

@[simp] theorem Mem.length_readRange (m : Mem) (a n : Nat) : (Mem.readRange m a n).length = n := by
  simp [Mem.readRange]

theorem Mem.getElem_readRange (m : Mem) (a n i : Nat) (h : i < (Mem.readRange m a n).length) :
    (Mem.readRange m a n)[i] = Mem.read m (a + i) := by
  simp [Mem.readRange]

theorem Mem.readRange_split (m : Mem) (a n k : Nat) :
    Mem.readRange m a (n + k) = Mem.readRange m a n ++ Mem.readRange m (a + n) k := by
  simp [Mem.readRange, List.range_add, Nat.add_assoc, Function.comp_def]

/-- Reading a space made from bytes over their whole length gives the bytes. -/
@[simp] theorem Mem.readRange_ofBytes (bs : Bytes) : Mem.readRange (Mem.ofBytes bs) 0 bs.length = bs := by
  refine List.ext_getElem (by simp) fun i h _ => ?_
  rw [Mem.getElem_readRange, Nat.zero_add, Mem.read_ofBytes]
  simp_all [List.getD]

theorem Mem.read_writeBytes (m : Mem) (bs : Bytes) (a x : Nat) :
    Mem.read (Mem.writeBytes m a bs) x = if a ≤ x ∧ x < a + bs.length then bs.getD (x - a) 0#8 else Mem.read m x := by
  induction bs generalizing m a with
  | nil =>
    have : ¬(a ≤ x ∧ x < a + ([] : Bytes).length) := by simp
    rw [if_neg this]; rfl
  | cons b bs ih =>
    simp only [Mem.writeBytes, ih, Mem.read_write, List.length_cons]
    rcases Nat.lt_trichotomy x a with h | rfl | h
    · rw [if_neg (by omega), if_neg (by omega), if_neg (by omega)]
    · rw [if_neg (by omega), if_pos rfl, if_pos (by omega)]; simp
    · obtain ⟨k, hk⟩ : ∃ k, x - a = k + 1 := ⟨x - a - 1, by omega⟩
      have hk' : x - (a + 1) = k := by omega
      rw [hk, hk', if_neg (show ¬x = a by omega)]
      by_cases hx : x < a + (bs.length + 1)
      · rw [if_pos (by omega), if_pos (by omega)]; simp
      · rw [if_neg (by omega), if_neg (by omega)]

/-- Bytes written are read back. -/
theorem Mem.readRange_writeBytes (m : Mem) (bs : Bytes) (a : Nat) :
    Mem.readRange (Mem.writeBytes m a bs) a bs.length = bs := by
  refine List.ext_getElem (by simp) fun i h _ => ?_
  rw [Mem.getElem_readRange, Mem.read_writeBytes, if_pos ⟨by omega, by simp at h; omega⟩]
  simp_all [List.getD]

/-- Two canonical spaces that read alike at every address are the same list. -/
theorem Mem.eq_of_read_eq {m n : Mem} (hm : Mem.wf m) (hn : Mem.wf n) (h : ∀ a, Mem.read m a = Mem.read n a) :
    m = n := by
  induction m generalizing n with
  | nil =>
    cases n with
    | nil => rfl
    | cons e n =>
      obtain ⟨y, d⟩ := e
      exact absurd (by simpa [Mem.read_cons] using (h y).symm) (hn.2 (y, d) (by simp))
  | cons c m ih =>
    obtain ⟨x, b⟩ := c
    obtain ⟨hxm, hm'⟩ := List.pairwise_cons.1 hm.1
    have hb : b ≠ 0#8 := hm.2 (x, b) (by simp)
    cases n with
    | nil => exact absurd (by simpa [Mem.read_cons] using h x) hb
    | cons e n =>
      obtain ⟨y, d⟩ := e
      obtain ⟨hyn, hn'⟩ := List.pairwise_cons.1 hn.1
      have hd : d ≠ 0#8 := hn.2 (y, d) (by simp)
      have before : ∀ {z : Nat} {k : Mem}, (∀ c ∈ k, z < c.1) → Mem.read k z = 0#8 := fun hk =>
        Mem.read_eq_zero_of_forall_ne fun c hc => by have := hk c hc; omega
      have hxy : x = y := by
        rcases Nat.lt_trichotomy x y with hlt | rfl | hlt
        · refine absurd ?_ hb
          have := h x
          rw [Mem.read_cons, if_pos rfl] at this
          rw [this]
          exact before fun c hc => by
            rcases List.mem_cons.1 hc with rfl | hc
            · exact hlt
            · exact Nat.lt_trans hlt (hyn c hc)
        · rfl
        · refine absurd ?_ hd
          have := h y
          rw [Mem.read_cons (a := y), Mem.read_cons (x := y), if_pos rfl, if_neg (by omega)] at this
          rw [← this]
          exact before fun c hc => Nat.lt_trans hlt (hxm c hc)
      subst hxy
      have hbd : b = d := by simpa [Mem.read_cons] using h x
      subst hbd
      congr 1
      refine ih ⟨hm', fun c hc => hm.2 c (by simp [hc])⟩ ⟨hn', fun c hc => hn.2 c (by simp [hc])⟩ fun a => ?_
      by_cases ha : x = a
      · subst ha; rw [before hxm, before hyn]
      · simpa [Mem.read_cons, ha] using h a

end Sys2Proof.Machine
end

