-- ==== Sys2Proof/Laws/PerInstr.lean ====
section
/-! SUPPORT. The per-instruction family `TableMatch`: the first byte of every encoding matches its row's mask and match
in spec/opcode_table.json (R83, R86). -/

namespace Sys2Proof.Laws

/-- The low byte of a row's mask: 0x1F for a frame (R83), 0xFF for a command (R86). -/
def tableMask (i : Instr) : Byte :=
  match i.port with
  | .frame => 0x1F#8
  | .command => 0xFF#8

/-- The low byte of a row's match, as the table has it. -/
def tableMatch : Instr → Byte
  | .chunkRsv0 _ _ _ => 0x00#8
  | .chunkTiles _ _ _ => 0x01#8
  | .chunkSprites _ _ _ => 0x02#8
  | .chunkCoverDep _ _ _ => 0x03#8
  | .chunkMap _ _ _ => 0x04#8
  | .chunkCode _ _ _ => 0x05#8
  | .chunkFlags _ _ _ => 0x06#8
  | .chunkRsv7 _ _ _ => 0x07#8
  | .chunkRsv8 _ _ _ => 0x08#8
  | .chunkSamples _ _ _ => 0x09#8
  | .chunkWaveform _ _ _ => 0x0A#8
  | .chunkRsv11 _ _ _ => 0x0B#8
  | .chunkPalette _ _ _ => 0x0C#8
  | .chunkPatternsDep _ _ _ => 0x0D#8
  | .chunkMusic _ _ _ => 0x0E#8
  | .chunkPatterns _ _ _ => 0x0F#8
  | .chunkZcodeDep _ _ _ => 0x10#8
  | .chunkDefault _ _ _ => 0x11#8
  | .chunkScreen _ _ _ => 0x12#8
  | .chunkBinary _ _ _ => 0x13#8
  | .chunkRsv20 _ _ _ => 0x14#8
  | .chunkRsv21 _ _ _ => 0x15#8
  | .chunkRsv22 _ _ _ => 0x16#8
  | .chunkRsv23 _ _ _ => 0x17#8
  | .chunkRsv24 _ _ _ => 0x18#8
  | .chunkRsv25 _ _ _ => 0x19#8
  | .chunkRsv26 _ _ _ => 0x1A#8
  | .chunkRsv27 _ _ _ => 0x1B#8
  | .chunkRsv28 _ _ _ => 0x1C#8
  | .chunkRsv29 _ _ _ => 0x1D#8
  | .chunkRsv30 _ _ _ => 0x1E#8
  | .chunkRsv31 _ _ _ => 0x1F#8
  | .parse => 0x01#8
  | .serialize => 0x02#8
  | .setPixel => 0x10#8
  | .getPixel => 0x11#8
  | .setColor => 0x20#8
  | .getColor => 0x21#8
  | .setTile => 0x30#8
  | .getTile => 0x31#8
  | .setFlags => 0x40#8
  | .getFlags => 0x41#8
  | .getSource => 0x50#8
  | .setBody => 0x51#8
  | .setHeaders => 0x52#8
  | .lookup => 0x60#8
  | .hasType => 0x61#8
  | .create => 0x62#8
  | .rdChunk => 0x63#8
  | .wrData => 0x64#8
  | .importColors => 0x65#8

/-- The first encoded byte of an instruction, masked, is its row's match. -/
def TableMatch.Statement (i : Instr) : Prop :=
  ∃ b rest, encode i = b :: rest ∧ b &&& tableMask i = tableMatch i

/-- The header byte of a frame, masked to 5 bits, is its type id (R83). -/
theorem headerByte_masked (bank : BitVec 3) (t : BitVec 5) :
    (bank ++ t : BitVec 8) &&& 0x1F#8 = t.setWidth 8 := by
  revert bank t; decide

theorem TableMatch.chunkRsv0 (bank : BitVec 3) (reserved : Byte) (payload : Bytes) :
    TableMatch.Statement (.chunkRsv0 bank reserved payload) :=
  ⟨_, _, rfl, headerByte_masked bank 0#5⟩

theorem TableMatch.chunkTiles (bank : BitVec 3) (reserved : Byte) (payload : Bytes) :
    TableMatch.Statement (.chunkTiles bank reserved payload) :=
  ⟨_, _, rfl, headerByte_masked bank 1#5⟩

theorem TableMatch.chunkSprites (bank : BitVec 3) (reserved : Byte) (payload : Bytes) :
    TableMatch.Statement (.chunkSprites bank reserved payload) :=
  ⟨_, _, rfl, headerByte_masked bank 2#5⟩

theorem TableMatch.chunkCoverDep (bank : BitVec 3) (reserved : Byte) (payload : Bytes) :
    TableMatch.Statement (.chunkCoverDep bank reserved payload) :=
  ⟨_, _, rfl, headerByte_masked bank 3#5⟩

theorem TableMatch.chunkMap (bank : BitVec 3) (reserved : Byte) (payload : Bytes) :
    TableMatch.Statement (.chunkMap bank reserved payload) :=
  ⟨_, _, rfl, headerByte_masked bank 4#5⟩

theorem TableMatch.chunkCode (bank : BitVec 3) (reserved : Byte) (payload : Bytes) :
    TableMatch.Statement (.chunkCode bank reserved payload) :=
  ⟨_, _, rfl, headerByte_masked bank 5#5⟩

theorem TableMatch.chunkFlags (bank : BitVec 3) (reserved : Byte) (payload : Bytes) :
    TableMatch.Statement (.chunkFlags bank reserved payload) :=
  ⟨_, _, rfl, headerByte_masked bank 6#5⟩

theorem TableMatch.chunkRsv7 (bank : BitVec 3) (reserved : Byte) (payload : Bytes) :
    TableMatch.Statement (.chunkRsv7 bank reserved payload) :=
  ⟨_, _, rfl, headerByte_masked bank 7#5⟩

theorem TableMatch.chunkRsv8 (bank : BitVec 3) (reserved : Byte) (payload : Bytes) :
    TableMatch.Statement (.chunkRsv8 bank reserved payload) :=
  ⟨_, _, rfl, headerByte_masked bank 8#5⟩

theorem TableMatch.chunkSamples (bank : BitVec 3) (reserved : Byte) (payload : Bytes) :
    TableMatch.Statement (.chunkSamples bank reserved payload) :=
  ⟨_, _, rfl, headerByte_masked bank 9#5⟩

theorem TableMatch.chunkWaveform (bank : BitVec 3) (reserved : Byte) (payload : Bytes) :
    TableMatch.Statement (.chunkWaveform bank reserved payload) :=
  ⟨_, _, rfl, headerByte_masked bank 10#5⟩

theorem TableMatch.chunkRsv11 (bank : BitVec 3) (reserved : Byte) (payload : Bytes) :
    TableMatch.Statement (.chunkRsv11 bank reserved payload) :=
  ⟨_, _, rfl, headerByte_masked bank 11#5⟩

theorem TableMatch.chunkPalette (bank : BitVec 3) (reserved : Byte) (payload : Bytes) :
    TableMatch.Statement (.chunkPalette bank reserved payload) :=
  ⟨_, _, rfl, headerByte_masked bank 12#5⟩

theorem TableMatch.chunkPatternsDep (bank : BitVec 3) (reserved : Byte) (payload : Bytes) :
    TableMatch.Statement (.chunkPatternsDep bank reserved payload) :=
  ⟨_, _, rfl, headerByte_masked bank 13#5⟩

theorem TableMatch.chunkMusic (bank : BitVec 3) (reserved : Byte) (payload : Bytes) :
    TableMatch.Statement (.chunkMusic bank reserved payload) :=
  ⟨_, _, rfl, headerByte_masked bank 14#5⟩

theorem TableMatch.chunkPatterns (bank : BitVec 3) (reserved : Byte) (payload : Bytes) :
    TableMatch.Statement (.chunkPatterns bank reserved payload) :=
  ⟨_, _, rfl, headerByte_masked bank 15#5⟩

theorem TableMatch.chunkZcodeDep (bank : BitVec 3) (reserved : Byte) (payload : Bytes) :
    TableMatch.Statement (.chunkZcodeDep bank reserved payload) :=
  ⟨_, _, rfl, headerByte_masked bank 16#5⟩

theorem TableMatch.chunkDefault (bank : BitVec 3) (reserved : Byte) (payload : Bytes) :
    TableMatch.Statement (.chunkDefault bank reserved payload) :=
  ⟨_, _, rfl, headerByte_masked bank 17#5⟩

theorem TableMatch.chunkScreen (bank : BitVec 3) (reserved : Byte) (payload : Bytes) :
    TableMatch.Statement (.chunkScreen bank reserved payload) :=
  ⟨_, _, rfl, headerByte_masked bank 18#5⟩

theorem TableMatch.chunkBinary (bank : BitVec 3) (reserved : Byte) (payload : Bytes) :
    TableMatch.Statement (.chunkBinary bank reserved payload) :=
  ⟨_, _, rfl, headerByte_masked bank 19#5⟩

theorem TableMatch.chunkRsv20 (bank : BitVec 3) (reserved : Byte) (payload : Bytes) :
    TableMatch.Statement (.chunkRsv20 bank reserved payload) :=
  ⟨_, _, rfl, headerByte_masked bank 20#5⟩

theorem TableMatch.chunkRsv21 (bank : BitVec 3) (reserved : Byte) (payload : Bytes) :
    TableMatch.Statement (.chunkRsv21 bank reserved payload) :=
  ⟨_, _, rfl, headerByte_masked bank 21#5⟩

theorem TableMatch.chunkRsv22 (bank : BitVec 3) (reserved : Byte) (payload : Bytes) :
    TableMatch.Statement (.chunkRsv22 bank reserved payload) :=
  ⟨_, _, rfl, headerByte_masked bank 22#5⟩

theorem TableMatch.chunkRsv23 (bank : BitVec 3) (reserved : Byte) (payload : Bytes) :
    TableMatch.Statement (.chunkRsv23 bank reserved payload) :=
  ⟨_, _, rfl, headerByte_masked bank 23#5⟩

theorem TableMatch.chunkRsv24 (bank : BitVec 3) (reserved : Byte) (payload : Bytes) :
    TableMatch.Statement (.chunkRsv24 bank reserved payload) :=
  ⟨_, _, rfl, headerByte_masked bank 24#5⟩

theorem TableMatch.chunkRsv25 (bank : BitVec 3) (reserved : Byte) (payload : Bytes) :
    TableMatch.Statement (.chunkRsv25 bank reserved payload) :=
  ⟨_, _, rfl, headerByte_masked bank 25#5⟩

theorem TableMatch.chunkRsv26 (bank : BitVec 3) (reserved : Byte) (payload : Bytes) :
    TableMatch.Statement (.chunkRsv26 bank reserved payload) :=
  ⟨_, _, rfl, headerByte_masked bank 26#5⟩

theorem TableMatch.chunkRsv27 (bank : BitVec 3) (reserved : Byte) (payload : Bytes) :
    TableMatch.Statement (.chunkRsv27 bank reserved payload) :=
  ⟨_, _, rfl, headerByte_masked bank 27#5⟩

theorem TableMatch.chunkRsv28 (bank : BitVec 3) (reserved : Byte) (payload : Bytes) :
    TableMatch.Statement (.chunkRsv28 bank reserved payload) :=
  ⟨_, _, rfl, headerByte_masked bank 28#5⟩

theorem TableMatch.chunkRsv29 (bank : BitVec 3) (reserved : Byte) (payload : Bytes) :
    TableMatch.Statement (.chunkRsv29 bank reserved payload) :=
  ⟨_, _, rfl, headerByte_masked bank 29#5⟩

theorem TableMatch.chunkRsv30 (bank : BitVec 3) (reserved : Byte) (payload : Bytes) :
    TableMatch.Statement (.chunkRsv30 bank reserved payload) :=
  ⟨_, _, rfl, headerByte_masked bank 30#5⟩

theorem TableMatch.chunkRsv31 (bank : BitVec 3) (reserved : Byte) (payload : Bytes) :
    TableMatch.Statement (.chunkRsv31 bank reserved payload) :=
  ⟨_, _, rfl, headerByte_masked bank 31#5⟩

theorem TableMatch.parse : TableMatch.Statement .parse := ⟨_, _, rfl, by decide⟩

theorem TableMatch.serialize : TableMatch.Statement .serialize := ⟨_, _, rfl, by decide⟩

theorem TableMatch.setPixel : TableMatch.Statement .setPixel := ⟨_, _, rfl, by decide⟩

theorem TableMatch.getPixel : TableMatch.Statement .getPixel := ⟨_, _, rfl, by decide⟩

theorem TableMatch.setColor : TableMatch.Statement .setColor := ⟨_, _, rfl, by decide⟩

theorem TableMatch.getColor : TableMatch.Statement .getColor := ⟨_, _, rfl, by decide⟩

theorem TableMatch.setTile : TableMatch.Statement .setTile := ⟨_, _, rfl, by decide⟩

theorem TableMatch.getTile : TableMatch.Statement .getTile := ⟨_, _, rfl, by decide⟩

theorem TableMatch.setFlags : TableMatch.Statement .setFlags := ⟨_, _, rfl, by decide⟩

theorem TableMatch.getFlags : TableMatch.Statement .getFlags := ⟨_, _, rfl, by decide⟩

theorem TableMatch.getSource : TableMatch.Statement .getSource := ⟨_, _, rfl, by decide⟩

theorem TableMatch.setBody : TableMatch.Statement .setBody := ⟨_, _, rfl, by decide⟩

theorem TableMatch.setHeaders : TableMatch.Statement .setHeaders := ⟨_, _, rfl, by decide⟩

theorem TableMatch.lookup : TableMatch.Statement .lookup := ⟨_, _, rfl, by decide⟩

theorem TableMatch.hasType : TableMatch.Statement .hasType := ⟨_, _, rfl, by decide⟩

theorem TableMatch.create : TableMatch.Statement .create := ⟨_, _, rfl, by decide⟩

theorem TableMatch.rdChunk : TableMatch.Statement .rdChunk := ⟨_, _, rfl, by decide⟩

theorem TableMatch.wrData : TableMatch.Statement .wrData := ⟨_, _, rfl, by decide⟩

theorem TableMatch.importColors : TableMatch.Statement .importColors := ⟨_, _, rfl, by decide⟩

end Sys2Proof.Laws
end

