-- ==== Sys2Proof/Laws/State.lean ====
section
/-! SUPPORT. One lemma per field per update of the state, so that no proof unfolds a record update. -/

namespace Sys2Proof.Machine

/-! ## `State.raise` -/

@[simp] theorem State.raise_cmd (s : State) (e : CmdError) : (s.raise e).cmd = s.cmd := rfl
@[simp] theorem State.raise_err (s : State) (e : CmdError) : (s.raise e).err = e.code := rfl
@[simp] theorem State.raise_errArg (s : State) (e : CmdError) : (s.raise e).errArg = e.arg := rfl
@[simp] theorem State.raise_errLo (s : State) (e : CmdError) : (s.raise e).errLo = e.lo := rfl
@[simp] theorem State.raise_errHi (s : State) (e : CmdError) : (s.raise e).errHi = e.hi := rfl
@[simp] theorem State.raise_pos (s : State) (e : CmdError) : (s.raise e).pos = s.pos := rfl
@[simp] theorem State.raise_cfgFill (s : State) (e : CmdError) : (s.raise e).cfgFill = s.cfgFill := rfl
@[simp] theorem State.raise_inLen (s : State) (e : CmdError) : (s.raise e).inLen = s.inLen := rfl
@[simp] theorem State.raise_outLen (s : State) (e : CmdError) : (s.raise e).outLen = s.outLen := rfl
@[simp] theorem State.raise_dinLen (s : State) (e : CmdError) : (s.raise e).dinLen = s.dinLen := rfl
@[simp] theorem State.raise_doutLen (s : State) (e : CmdError) : (s.raise e).doutLen = s.doutLen := rfl
@[simp] theorem State.raise_a (s : State) (e : CmdError) : (s.raise e).a = s.a := rfl
@[simp] theorem State.raise_r (s : State) (e : CmdError) : (s.raise e).r = s.r := rfl
@[simp] theorem State.raise_ch (s : State) (e : CmdError) : (s.raise e).ch = s.ch := rfl
@[simp] theorem State.raise_inBuf (s : State) (e : CmdError) : (s.raise e).inBuf = s.inBuf := rfl
@[simp] theorem State.raise_outBuf (s : State) (e : CmdError) : (s.raise e).outBuf = s.outBuf := rfl
@[simp] theorem State.raise_dinBuf (s : State) (e : CmdError) : (s.raise e).dinBuf = s.dinBuf := rfl
@[simp] theorem State.raise_doutBuf (s : State) (e : CmdError) : (s.raise e).doutBuf = s.doutBuf := rfl
@[simp] theorem State.raise_params (s : State) (e : CmdError) : (s.raise e).params = s.params := rfl
@[simp] theorem State.raise_seq (s : State) (e : CmdError) : (s.raise e).seq = s.seq := rfl
@[simp] theorem State.raise_staging (s : State) (e : CmdError) : (s.raise e).staging = s.staging := rfl
@[simp] theorem State.raise_host (s : State) (e : CmdError) : (s.raise e).host = s.host := rfl
@[simp] theorem State.raise_bus (s : State) (e : CmdError) : (s.raise e).bus = s.bus := rfl
@[simp] theorem State.raise_freeCount (s : State) (e : CmdError) : (s.raise e).freeCount = s.freeCount := rfl

/-! ## `State.complete` -/

@[simp] theorem State.complete_cmd (s : State) : (s.complete).cmd = s.cmd := rfl
@[simp] theorem State.complete_err (s : State) : (s.complete).err = 0#8 := rfl
@[simp] theorem State.complete_errArg (s : State) : (s.complete).errArg = 0#8 := rfl
@[simp] theorem State.complete_errLo (s : State) : (s.complete).errLo = 0#32 := rfl
@[simp] theorem State.complete_errHi (s : State) : (s.complete).errHi = 0#32 := rfl
@[simp] theorem State.complete_pos (s : State) : (s.complete).pos = s.pos := rfl
@[simp] theorem State.complete_cfgFill (s : State) : (s.complete).cfgFill = s.cfgFill := rfl
@[simp] theorem State.complete_inLen (s : State) : (s.complete).inLen = s.inLen := rfl
@[simp] theorem State.complete_outLen (s : State) : (s.complete).outLen = s.outLen := rfl
@[simp] theorem State.complete_dinLen (s : State) : (s.complete).dinLen = s.dinLen := rfl
@[simp] theorem State.complete_doutLen (s : State) : (s.complete).doutLen = s.doutLen := rfl
@[simp] theorem State.complete_a (s : State) : (s.complete).a = s.a := rfl
@[simp] theorem State.complete_r (s : State) : (s.complete).r = s.r := rfl
@[simp] theorem State.complete_ch (s : State) : (s.complete).ch = s.ch := rfl
@[simp] theorem State.complete_inBuf (s : State) : (s.complete).inBuf = s.inBuf := rfl
@[simp] theorem State.complete_outBuf (s : State) : (s.complete).outBuf = s.outBuf := rfl
@[simp] theorem State.complete_dinBuf (s : State) : (s.complete).dinBuf = s.dinBuf := rfl
@[simp] theorem State.complete_doutBuf (s : State) : (s.complete).doutBuf = s.doutBuf := rfl
@[simp] theorem State.complete_params (s : State) : (s.complete).params = s.params := rfl
@[simp] theorem State.complete_seq (s : State) : (s.complete).seq = s.seq := rfl
@[simp] theorem State.complete_staging (s : State) : (s.complete).staging = s.staging := rfl
@[simp] theorem State.complete_host (s : State) : (s.complete).host = s.host := rfl
@[simp] theorem State.complete_bus (s : State) : (s.complete).bus = s.bus := rfl
@[simp] theorem State.complete_freeCount (s : State) : (s.complete).freeCount = s.freeCount := rfl

/-! ## `State.setR` -/

@[simp] theorem State.setR_cmd (s : State) (i : Fin 4) (v : Word) : (s.setR i v).cmd = s.cmd := rfl
@[simp] theorem State.setR_err (s : State) (i : Fin 4) (v : Word) : (s.setR i v).err = s.err := rfl
@[simp] theorem State.setR_errArg (s : State) (i : Fin 4) (v : Word) : (s.setR i v).errArg = s.errArg := rfl
@[simp] theorem State.setR_errLo (s : State) (i : Fin 4) (v : Word) : (s.setR i v).errLo = s.errLo := rfl
@[simp] theorem State.setR_errHi (s : State) (i : Fin 4) (v : Word) : (s.setR i v).errHi = s.errHi := rfl
@[simp] theorem State.setR_pos (s : State) (i : Fin 4) (v : Word) : (s.setR i v).pos = s.pos := rfl
@[simp] theorem State.setR_cfgFill (s : State) (i : Fin 4) (v : Word) : (s.setR i v).cfgFill = s.cfgFill := rfl
@[simp] theorem State.setR_inLen (s : State) (i : Fin 4) (v : Word) : (s.setR i v).inLen = s.inLen := rfl
@[simp] theorem State.setR_outLen (s : State) (i : Fin 4) (v : Word) : (s.setR i v).outLen = s.outLen := rfl
@[simp] theorem State.setR_dinLen (s : State) (i : Fin 4) (v : Word) : (s.setR i v).dinLen = s.dinLen := rfl
@[simp] theorem State.setR_doutLen (s : State) (i : Fin 4) (v : Word) : (s.setR i v).doutLen = s.doutLen := rfl
@[simp] theorem State.setR_a (s : State) (i : Fin 4) (v : Word) : (s.setR i v).a = s.a := rfl
@[simp] theorem State.setR_r (s : State) (i : Fin 4) (v : Word) : (s.setR i v).r = s.r.set i v := rfl
@[simp] theorem State.setR_ch (s : State) (i : Fin 4) (v : Word) : (s.setR i v).ch = s.ch := rfl
@[simp] theorem State.setR_inBuf (s : State) (i : Fin 4) (v : Word) : (s.setR i v).inBuf = s.inBuf := rfl
@[simp] theorem State.setR_outBuf (s : State) (i : Fin 4) (v : Word) : (s.setR i v).outBuf = s.outBuf := rfl
@[simp] theorem State.setR_dinBuf (s : State) (i : Fin 4) (v : Word) : (s.setR i v).dinBuf = s.dinBuf := rfl
@[simp] theorem State.setR_doutBuf (s : State) (i : Fin 4) (v : Word) : (s.setR i v).doutBuf = s.doutBuf := rfl
@[simp] theorem State.setR_params (s : State) (i : Fin 4) (v : Word) : (s.setR i v).params = s.params := rfl
@[simp] theorem State.setR_seq (s : State) (i : Fin 4) (v : Word) : (s.setR i v).seq = s.seq := rfl
@[simp] theorem State.setR_staging (s : State) (i : Fin 4) (v : Word) : (s.setR i v).staging = s.staging := rfl
@[simp] theorem State.setR_host (s : State) (i : Fin 4) (v : Word) : (s.setR i v).host = s.host := rfl
@[simp] theorem State.setR_bus (s : State) (i : Fin 4) (v : Word) : (s.setR i v).bus = s.bus := rfl
@[simp] theorem State.setR_freeCount (s : State) (i : Fin 4) (v : Word) : (s.setR i v).freeCount = s.freeCount := rfl

/-! ## `State.setOut` -/

@[simp] theorem State.setOut_cmd (s : State) (bs : Bytes) : (s.setOut bs).cmd = s.cmd := rfl
@[simp] theorem State.setOut_err (s : State) (bs : Bytes) : (s.setOut bs).err = s.err := rfl
@[simp] theorem State.setOut_errArg (s : State) (bs : Bytes) : (s.setOut bs).errArg = s.errArg := rfl
@[simp] theorem State.setOut_errLo (s : State) (bs : Bytes) : (s.setOut bs).errLo = s.errLo := rfl
@[simp] theorem State.setOut_errHi (s : State) (bs : Bytes) : (s.setOut bs).errHi = s.errHi := rfl
@[simp] theorem State.setOut_pos (s : State) (bs : Bytes) : (s.setOut bs).pos = s.pos := rfl
@[simp] theorem State.setOut_cfgFill (s : State) (bs : Bytes) : (s.setOut bs).cfgFill = s.cfgFill := rfl
@[simp] theorem State.setOut_inLen (s : State) (bs : Bytes) : (s.setOut bs).inLen = s.inLen := rfl
@[simp] theorem State.setOut_outLen (s : State) (bs : Bytes) : (s.setOut bs).outLen = BitVec.ofNat 32 bs.length := rfl
@[simp] theorem State.setOut_dinLen (s : State) (bs : Bytes) : (s.setOut bs).dinLen = s.dinLen := rfl
@[simp] theorem State.setOut_doutLen (s : State) (bs : Bytes) : (s.setOut bs).doutLen = s.doutLen := rfl
@[simp] theorem State.setOut_a (s : State) (bs : Bytes) : (s.setOut bs).a = s.a := rfl
@[simp] theorem State.setOut_r (s : State) (bs : Bytes) : (s.setOut bs).r = s.r := rfl
@[simp] theorem State.setOut_ch (s : State) (bs : Bytes) : (s.setOut bs).ch = s.ch := rfl
@[simp] theorem State.setOut_inBuf (s : State) (bs : Bytes) : (s.setOut bs).inBuf = s.inBuf := rfl
@[simp] theorem State.setOut_outBuf (s : State) (bs : Bytes) : (s.setOut bs).outBuf = Mem.ofBytes bs := rfl
@[simp] theorem State.setOut_dinBuf (s : State) (bs : Bytes) : (s.setOut bs).dinBuf = s.dinBuf := rfl
@[simp] theorem State.setOut_doutBuf (s : State) (bs : Bytes) : (s.setOut bs).doutBuf = s.doutBuf := rfl
@[simp] theorem State.setOut_params (s : State) (bs : Bytes) : (s.setOut bs).params = s.params := rfl
@[simp] theorem State.setOut_seq (s : State) (bs : Bytes) : (s.setOut bs).seq = s.seq := rfl
@[simp] theorem State.setOut_staging (s : State) (bs : Bytes) : (s.setOut bs).staging = s.staging := rfl
@[simp] theorem State.setOut_host (s : State) (bs : Bytes) : (s.setOut bs).host = s.host := rfl
@[simp] theorem State.setOut_bus (s : State) (bs : Bytes) : (s.setOut bs).bus = s.bus := rfl
@[simp] theorem State.setOut_freeCount (s : State) (bs : Bytes) : (s.setOut bs).freeCount = s.freeCount := rfl

/-! ## `State.setDout` -/

@[simp] theorem State.setDout_cmd (s : State) (bs : Bytes) : (s.setDout bs).cmd = s.cmd := rfl
@[simp] theorem State.setDout_err (s : State) (bs : Bytes) : (s.setDout bs).err = s.err := rfl
@[simp] theorem State.setDout_errArg (s : State) (bs : Bytes) : (s.setDout bs).errArg = s.errArg := rfl
@[simp] theorem State.setDout_errLo (s : State) (bs : Bytes) : (s.setDout bs).errLo = s.errLo := rfl
@[simp] theorem State.setDout_errHi (s : State) (bs : Bytes) : (s.setDout bs).errHi = s.errHi := rfl
@[simp] theorem State.setDout_pos (s : State) (bs : Bytes) : (s.setDout bs).pos = s.pos := rfl
@[simp] theorem State.setDout_cfgFill (s : State) (bs : Bytes) : (s.setDout bs).cfgFill = s.cfgFill := rfl
@[simp] theorem State.setDout_inLen (s : State) (bs : Bytes) : (s.setDout bs).inLen = s.inLen := rfl
@[simp] theorem State.setDout_outLen (s : State) (bs : Bytes) : (s.setDout bs).outLen = s.outLen := rfl
@[simp] theorem State.setDout_dinLen (s : State) (bs : Bytes) : (s.setDout bs).dinLen = s.dinLen := rfl
@[simp] theorem State.setDout_doutLen (s : State) (bs : Bytes) : (s.setDout bs).doutLen = BitVec.ofNat 32 bs.length := rfl
@[simp] theorem State.setDout_a (s : State) (bs : Bytes) : (s.setDout bs).a = s.a := rfl
@[simp] theorem State.setDout_r (s : State) (bs : Bytes) : (s.setDout bs).r = s.r := rfl
@[simp] theorem State.setDout_ch (s : State) (bs : Bytes) : (s.setDout bs).ch = s.ch := rfl
@[simp] theorem State.setDout_inBuf (s : State) (bs : Bytes) : (s.setDout bs).inBuf = s.inBuf := rfl
@[simp] theorem State.setDout_outBuf (s : State) (bs : Bytes) : (s.setDout bs).outBuf = s.outBuf := rfl
@[simp] theorem State.setDout_dinBuf (s : State) (bs : Bytes) : (s.setDout bs).dinBuf = s.dinBuf := rfl
@[simp] theorem State.setDout_doutBuf (s : State) (bs : Bytes) : (s.setDout bs).doutBuf = Mem.ofBytes bs := rfl
@[simp] theorem State.setDout_params (s : State) (bs : Bytes) : (s.setDout bs).params = s.params := rfl
@[simp] theorem State.setDout_seq (s : State) (bs : Bytes) : (s.setDout bs).seq = s.seq := rfl
@[simp] theorem State.setDout_staging (s : State) (bs : Bytes) : (s.setDout bs).staging = s.staging := rfl
@[simp] theorem State.setDout_host (s : State) (bs : Bytes) : (s.setDout bs).host = s.host := rfl
@[simp] theorem State.setDout_bus (s : State) (bs : Bytes) : (s.setDout bs).bus = s.bus := rfl
@[simp] theorem State.setDout_freeCount (s : State) (bs : Bytes) : (s.setDout bs).freeCount = s.freeCount := rfl

/-! ## `State.setData` -/

@[simp] theorem State.setData_cmd (s : State) (k : Nat) (d : Bytes) : (s.setData k d).cmd = s.cmd := rfl
@[simp] theorem State.setData_err (s : State) (k : Nat) (d : Bytes) : (s.setData k d).err = s.err := rfl
@[simp] theorem State.setData_errArg (s : State) (k : Nat) (d : Bytes) : (s.setData k d).errArg = s.errArg := rfl
@[simp] theorem State.setData_errLo (s : State) (k : Nat) (d : Bytes) : (s.setData k d).errLo = s.errLo := rfl
@[simp] theorem State.setData_errHi (s : State) (k : Nat) (d : Bytes) : (s.setData k d).errHi = s.errHi := rfl
@[simp] theorem State.setData_pos (s : State) (k : Nat) (d : Bytes) : (s.setData k d).pos = s.pos := rfl
@[simp] theorem State.setData_cfgFill (s : State) (k : Nat) (d : Bytes) : (s.setData k d).cfgFill = s.cfgFill := rfl
@[simp] theorem State.setData_inLen (s : State) (k : Nat) (d : Bytes) : (s.setData k d).inLen = s.inLen := rfl
@[simp] theorem State.setData_outLen (s : State) (k : Nat) (d : Bytes) : (s.setData k d).outLen = s.outLen := rfl
@[simp] theorem State.setData_dinLen (s : State) (k : Nat) (d : Bytes) : (s.setData k d).dinLen = s.dinLen := rfl
@[simp] theorem State.setData_doutLen (s : State) (k : Nat) (d : Bytes) : (s.setData k d).doutLen = s.doutLen := rfl
@[simp] theorem State.setData_a (s : State) (k : Nat) (d : Bytes) : (s.setData k d).a = s.a := rfl
@[simp] theorem State.setData_r (s : State) (k : Nat) (d : Bytes) : (s.setData k d).r = s.r := rfl
@[simp] theorem State.setData_ch (s : State) (k : Nat) (d : Bytes) : (s.setData k d).ch = s.ch.modify k fun c => { c with data := d } := rfl
@[simp] theorem State.setData_inBuf (s : State) (k : Nat) (d : Bytes) : (s.setData k d).inBuf = s.inBuf := rfl
@[simp] theorem State.setData_outBuf (s : State) (k : Nat) (d : Bytes) : (s.setData k d).outBuf = s.outBuf := rfl
@[simp] theorem State.setData_dinBuf (s : State) (k : Nat) (d : Bytes) : (s.setData k d).dinBuf = s.dinBuf := rfl
@[simp] theorem State.setData_doutBuf (s : State) (k : Nat) (d : Bytes) : (s.setData k d).doutBuf = s.doutBuf := rfl
@[simp] theorem State.setData_params (s : State) (k : Nat) (d : Bytes) : (s.setData k d).params = s.params := rfl
@[simp] theorem State.setData_seq (s : State) (k : Nat) (d : Bytes) : (s.setData k d).seq = s.seq := rfl
@[simp] theorem State.setData_staging (s : State) (k : Nat) (d : Bytes) : (s.setData k d).staging = s.staging := rfl
@[simp] theorem State.setData_host (s : State) (k : Nat) (d : Bytes) : (s.setData k d).host = s.host := rfl
@[simp] theorem State.setData_bus (s : State) (k : Nat) (d : Bytes) : (s.setData k d).bus = s.bus := rfl
@[simp] theorem State.setData_freeCount (s : State) (k : Nat) (d : Bytes) : (s.setData k d).freeCount = s.freeCount := rfl

/-! ## `State.passFrame` -/

@[simp] theorem State.passFrame_cmd (s : State) (f : Frame) : (s.passFrame f).cmd = s.cmd := rfl
@[simp] theorem State.passFrame_err (s : State) (f : Frame) : (s.passFrame f).err = s.err := rfl
@[simp] theorem State.passFrame_errArg (s : State) (f : Frame) : (s.passFrame f).errArg = s.errArg := rfl
@[simp] theorem State.passFrame_errLo (s : State) (f : Frame) : (s.passFrame f).errLo = s.errLo := rfl
@[simp] theorem State.passFrame_errHi (s : State) (f : Frame) : (s.passFrame f).errHi = s.errHi := rfl
@[simp] theorem State.passFrame_pos (s : State) (f : Frame) : (s.passFrame f).pos = s.pos + BitVec.ofNat 32 (4 + f.payload.length) := rfl
@[simp] theorem State.passFrame_cfgFill (s : State) (f : Frame) : (s.passFrame f).cfgFill = s.cfgFill := rfl
@[simp] theorem State.passFrame_inLen (s : State) (f : Frame) : (s.passFrame f).inLen = s.inLen := rfl
@[simp] theorem State.passFrame_outLen (s : State) (f : Frame) : (s.passFrame f).outLen = s.outLen := rfl
@[simp] theorem State.passFrame_dinLen (s : State) (f : Frame) : (s.passFrame f).dinLen = s.dinLen := rfl
@[simp] theorem State.passFrame_doutLen (s : State) (f : Frame) : (s.passFrame f).doutLen = s.doutLen := rfl
@[simp] theorem State.passFrame_a (s : State) (f : Frame) : (s.passFrame f).a = s.a := rfl
@[simp] theorem State.passFrame_r (s : State) (f : Frame) : (s.passFrame f).r = s.r := rfl
@[simp] theorem State.passFrame_ch (s : State) (f : Frame) : (s.passFrame f).ch = s.ch := rfl
@[simp] theorem State.passFrame_inBuf (s : State) (f : Frame) : (s.passFrame f).inBuf = s.inBuf := rfl
@[simp] theorem State.passFrame_outBuf (s : State) (f : Frame) : (s.passFrame f).outBuf = s.outBuf := rfl
@[simp] theorem State.passFrame_dinBuf (s : State) (f : Frame) : (s.passFrame f).dinBuf = s.dinBuf := rfl
@[simp] theorem State.passFrame_doutBuf (s : State) (f : Frame) : (s.passFrame f).doutBuf = s.doutBuf := rfl
@[simp] theorem State.passFrame_params (s : State) (f : Frame) : (s.passFrame f).params = s.params := rfl
@[simp] theorem State.passFrame_seq (s : State) (f : Frame) : (s.passFrame f).seq = s.seq := rfl
@[simp] theorem State.passFrame_staging (s : State) (f : Frame) : (s.passFrame f).staging = s.staging ++ [frameRecord f] := rfl
@[simp] theorem State.passFrame_host (s : State) (f : Frame) : (s.passFrame f).host = s.host := rfl
@[simp] theorem State.passFrame_bus (s : State) (f : Frame) : (s.passFrame f).bus = s.bus := rfl
@[simp] theorem State.passFrame_freeCount (s : State) (f : Frame) : (s.passFrame f).freeCount = s.freeCount := rfl

/-! ## `State.accept` -/

@[simp] theorem State.accept_cmd (s : State) : (s.accept).cmd = s.cmd := rfl
@[simp] theorem State.accept_err (s : State) : (s.accept).err = s.err := rfl
@[simp] theorem State.accept_errArg (s : State) : (s.accept).errArg = s.errArg := rfl
@[simp] theorem State.accept_errLo (s : State) : (s.accept).errLo = s.errLo := rfl
@[simp] theorem State.accept_errHi (s : State) : (s.accept).errHi = s.errHi := rfl
@[simp] theorem State.accept_pos (s : State) : (s.accept).pos = s.pos := rfl
@[simp] theorem State.accept_cfgFill (s : State) : (s.accept).cfgFill = s.cfgFill := rfl
@[simp] theorem State.accept_inLen (s : State) : (s.accept).inLen = s.inLen := rfl
@[simp] theorem State.accept_outLen (s : State) : (s.accept).outLen = s.outLen := rfl
@[simp] theorem State.accept_dinLen (s : State) : (s.accept).dinLen = s.dinLen := rfl
@[simp] theorem State.accept_doutLen (s : State) : (s.accept).doutLen = s.doutLen := rfl
@[simp] theorem State.accept_a (s : State) : (s.accept).a = s.a := rfl
@[simp] theorem State.accept_r (s : State) : (s.accept).r = s.r := rfl
@[simp] theorem State.accept_ch (s : State) : (s.accept).ch = s.ch := rfl
@[simp] theorem State.accept_inBuf (s : State) : (s.accept).inBuf = s.inBuf := rfl
@[simp] theorem State.accept_outBuf (s : State) : (s.accept).outBuf = s.outBuf := rfl
@[simp] theorem State.accept_dinBuf (s : State) : (s.accept).dinBuf = s.dinBuf := rfl
@[simp] theorem State.accept_doutBuf (s : State) : (s.accept).doutBuf = s.doutBuf := rfl
@[simp] theorem State.accept_params (s : State) : (s.accept).params = s.params := rfl
@[simp] theorem State.accept_seq (s : State) : (s.accept).seq = .idle := rfl
@[simp] theorem State.accept_staging (s : State) : (s.accept).staging = s.staging := rfl
@[simp] theorem State.accept_host (s : State) : (s.accept).host = s.host := rfl
@[simp] theorem State.accept_bus (s : State) : (s.accept).bus = s.bus := rfl
@[simp] theorem State.accept_freeCount (s : State) : (s.accept).freeCount = s.freeCount := rfl

/-! ## `State.startParse` -/

@[simp] theorem State.startParse_cmd (s : State) : (s.startParse).cmd = s.cmd := rfl
@[simp] theorem State.startParse_err (s : State) : (s.startParse).err = s.err := rfl
@[simp] theorem State.startParse_errArg (s : State) : (s.startParse).errArg = s.errArg := rfl
@[simp] theorem State.startParse_errLo (s : State) : (s.startParse).errLo = s.errLo := rfl
@[simp] theorem State.startParse_errHi (s : State) : (s.startParse).errHi = s.errHi := rfl
@[simp] theorem State.startParse_pos (s : State) : (s.startParse).pos = 0#32 := rfl
@[simp] theorem State.startParse_cfgFill (s : State) : (s.startParse).cfgFill = s.cfgFill := rfl
@[simp] theorem State.startParse_inLen (s : State) : (s.startParse).inLen = s.inLen := rfl
@[simp] theorem State.startParse_outLen (s : State) : (s.startParse).outLen = s.outLen := rfl
@[simp] theorem State.startParse_dinLen (s : State) : (s.startParse).dinLen = s.dinLen := rfl
@[simp] theorem State.startParse_doutLen (s : State) : (s.startParse).doutLen = s.doutLen := rfl
@[simp] theorem State.startParse_a (s : State) : (s.startParse).a = s.a := rfl
@[simp] theorem State.startParse_r (s : State) : (s.startParse).r = s.r := rfl
@[simp] theorem State.startParse_ch (s : State) : (s.startParse).ch = s.ch := rfl
@[simp] theorem State.startParse_inBuf (s : State) : (s.startParse).inBuf = s.inBuf := rfl
@[simp] theorem State.startParse_outBuf (s : State) : (s.startParse).outBuf = s.outBuf := rfl
@[simp] theorem State.startParse_dinBuf (s : State) : (s.startParse).dinBuf = s.dinBuf := rfl
@[simp] theorem State.startParse_doutBuf (s : State) : (s.startParse).doutBuf = s.doutBuf := rfl
@[simp] theorem State.startParse_params (s : State) : (s.startParse).params = s.params := rfl
@[simp] theorem State.startParse_seq (s : State) : (s.startParse).seq = .parsing := rfl
@[simp] theorem State.startParse_staging (s : State) : (s.startParse).staging = [] := rfl
@[simp] theorem State.startParse_host (s : State) : (s.startParse).host = s.host := rfl
@[simp] theorem State.startParse_bus (s : State) : (s.startParse).bus = s.bus := rfl
@[simp] theorem State.startParse_freeCount (s : State) : (s.startParse).freeCount = s.freeCount := rfl

/-! ## `State.truncateParse` -/

@[simp] theorem State.truncateParse_cmd (s : State) : (s.truncateParse).cmd = s.cmd := rfl
@[simp] theorem State.truncateParse_err (s : State) : (s.truncateParse).err = 3#8 := rfl
@[simp] theorem State.truncateParse_errArg (s : State) : (s.truncateParse).errArg = 0#8 := rfl
@[simp] theorem State.truncateParse_errLo (s : State) : (s.truncateParse).errLo = 0#32 := rfl
@[simp] theorem State.truncateParse_errHi (s : State) : (s.truncateParse).errHi = 0#32 := rfl
@[simp] theorem State.truncateParse_pos (s : State) : (s.truncateParse).pos = s.pos := rfl
@[simp] theorem State.truncateParse_cfgFill (s : State) : (s.truncateParse).cfgFill = s.cfgFill := rfl
@[simp] theorem State.truncateParse_inLen (s : State) : (s.truncateParse).inLen = s.inLen := rfl
@[simp] theorem State.truncateParse_outLen (s : State) : (s.truncateParse).outLen = s.outLen := rfl
@[simp] theorem State.truncateParse_dinLen (s : State) : (s.truncateParse).dinLen = s.dinLen := rfl
@[simp] theorem State.truncateParse_doutLen (s : State) : (s.truncateParse).doutLen = s.doutLen := rfl
@[simp] theorem State.truncateParse_a (s : State) : (s.truncateParse).a = s.a := rfl
@[simp] theorem State.truncateParse_r (s : State) : (s.truncateParse).r = s.r := rfl
@[simp] theorem State.truncateParse_ch (s : State) : (s.truncateParse).ch = s.ch := rfl
@[simp] theorem State.truncateParse_inBuf (s : State) : (s.truncateParse).inBuf = s.inBuf := rfl
@[simp] theorem State.truncateParse_outBuf (s : State) : (s.truncateParse).outBuf = s.outBuf := rfl
@[simp] theorem State.truncateParse_dinBuf (s : State) : (s.truncateParse).dinBuf = s.dinBuf := rfl
@[simp] theorem State.truncateParse_doutBuf (s : State) : (s.truncateParse).doutBuf = s.doutBuf := rfl
@[simp] theorem State.truncateParse_params (s : State) : (s.truncateParse).params = s.params := rfl
@[simp] theorem State.truncateParse_seq (s : State) : (s.truncateParse).seq = .idle := rfl
@[simp] theorem State.truncateParse_staging (s : State) : (s.truncateParse).staging = [] := rfl
@[simp] theorem State.truncateParse_host (s : State) : (s.truncateParse).host = s.host := rfl
@[simp] theorem State.truncateParse_bus (s : State) : (s.truncateParse).bus = s.bus := rfl
@[simp] theorem State.truncateParse_freeCount (s : State) : (s.truncateParse).freeCount = s.freeCount := rfl

/-! ## `State.answer` -/

@[simp] theorem State.answer_cmd (s : State) (v : Word) : (s.answer v).cmd = s.cmd := rfl
@[simp] theorem State.answer_err (s : State) (v : Word) : (s.answer v).err = s.err := rfl
@[simp] theorem State.answer_errArg (s : State) (v : Word) : (s.answer v).errArg = s.errArg := rfl
@[simp] theorem State.answer_errLo (s : State) (v : Word) : (s.answer v).errLo = s.errLo := rfl
@[simp] theorem State.answer_errHi (s : State) (v : Word) : (s.answer v).errHi = s.errHi := rfl
@[simp] theorem State.answer_pos (s : State) (v : Word) : (s.answer v).pos = s.pos := rfl
@[simp] theorem State.answer_cfgFill (s : State) (v : Word) : (s.answer v).cfgFill = s.cfgFill := rfl
@[simp] theorem State.answer_inLen (s : State) (v : Word) : (s.answer v).inLen = s.inLen := rfl
@[simp] theorem State.answer_outLen (s : State) (v : Word) : (s.answer v).outLen = s.outLen := rfl
@[simp] theorem State.answer_dinLen (s : State) (v : Word) : (s.answer v).dinLen = s.dinLen := rfl
@[simp] theorem State.answer_doutLen (s : State) (v : Word) : (s.answer v).doutLen = s.doutLen := rfl
@[simp] theorem State.answer_a (s : State) (v : Word) : (s.answer v).a = s.a := rfl
@[simp] theorem State.answer_r (s : State) (v : Word) : (s.answer v).r = s.r := rfl
@[simp] theorem State.answer_ch (s : State) (v : Word) : (s.answer v).ch = s.ch := rfl
@[simp] theorem State.answer_inBuf (s : State) (v : Word) : (s.answer v).inBuf = s.inBuf := rfl
@[simp] theorem State.answer_outBuf (s : State) (v : Word) : (s.answer v).outBuf = s.outBuf := rfl
@[simp] theorem State.answer_dinBuf (s : State) (v : Word) : (s.answer v).dinBuf = s.dinBuf := rfl
@[simp] theorem State.answer_doutBuf (s : State) (v : Word) : (s.answer v).doutBuf = s.doutBuf := rfl
@[simp] theorem State.answer_params (s : State) (v : Word) : (s.answer v).params = s.params := rfl
@[simp] theorem State.answer_seq (s : State) (v : Word) : (s.answer v).seq = s.seq := rfl
@[simp] theorem State.answer_staging (s : State) (v : Word) : (s.answer v).staging = s.staging := rfl
@[simp] theorem State.answer_host (s : State) (v : Word) : (s.answer v).host = s.host := rfl
@[simp] theorem State.answer_bus (s : State) (v : Word) : (s.answer v).bus = v := rfl
@[simp] theorem State.answer_freeCount (s : State) (v : Word) : (s.answer v).freeCount = s.freeCount := rfl

/-! ## `State.answerOpen` -/

@[simp] theorem State.answerOpen_cmd (s : State) : (s.answerOpen).cmd = s.cmd := rfl
@[simp] theorem State.answerOpen_err (s : State) : (s.answerOpen).err = s.err := rfl
@[simp] theorem State.answerOpen_errArg (s : State) : (s.answerOpen).errArg = s.errArg := rfl
@[simp] theorem State.answerOpen_errLo (s : State) : (s.answerOpen).errLo = s.errLo := rfl
@[simp] theorem State.answerOpen_errHi (s : State) : (s.answerOpen).errHi = s.errHi := rfl
@[simp] theorem State.answerOpen_pos (s : State) : (s.answerOpen).pos = s.pos := rfl
@[simp] theorem State.answerOpen_cfgFill (s : State) : (s.answerOpen).cfgFill = s.cfgFill := rfl
@[simp] theorem State.answerOpen_inLen (s : State) : (s.answerOpen).inLen = s.inLen := rfl
@[simp] theorem State.answerOpen_outLen (s : State) : (s.answerOpen).outLen = s.outLen := rfl
@[simp] theorem State.answerOpen_dinLen (s : State) : (s.answerOpen).dinLen = s.dinLen := rfl
@[simp] theorem State.answerOpen_doutLen (s : State) : (s.answerOpen).doutLen = s.doutLen := rfl
@[simp] theorem State.answerOpen_a (s : State) : (s.answerOpen).a = s.a := rfl
@[simp] theorem State.answerOpen_r (s : State) : (s.answerOpen).r = s.r := rfl
@[simp] theorem State.answerOpen_ch (s : State) : (s.answerOpen).ch = s.ch := rfl
@[simp] theorem State.answerOpen_inBuf (s : State) : (s.answerOpen).inBuf = s.inBuf := rfl
@[simp] theorem State.answerOpen_outBuf (s : State) : (s.answerOpen).outBuf = s.outBuf := rfl
@[simp] theorem State.answerOpen_dinBuf (s : State) : (s.answerOpen).dinBuf = s.dinBuf := rfl
@[simp] theorem State.answerOpen_doutBuf (s : State) : (s.answerOpen).doutBuf = s.doutBuf := rfl
@[simp] theorem State.answerOpen_params (s : State) : (s.answerOpen).params = s.params := rfl
@[simp] theorem State.answerOpen_seq (s : State) : (s.answerOpen).seq = s.seq := rfl
@[simp] theorem State.answerOpen_staging (s : State) : (s.answerOpen).staging = s.staging := rfl
@[simp] theorem State.answerOpen_host (s : State) : (s.answerOpen).host = s.host := rfl
@[simp] theorem State.answerOpen_bus (s : State) : (s.answerOpen).bus = (Config.openRead s.freeCount).setWidth 32 := rfl
@[simp] theorem State.answerOpen_freeCount (s : State) : (s.answerOpen).freeCount = s.freeCount + 1 := rfl

end Sys2Proof.Machine
end

