-- ==== Sys2Proof/Laws/Store.lean ====
section
/-! SUPPORT. What writing the store, appending a record and the host's accesses do. -/

namespace Sys2Proof.Machine

@[simp] theorem State.length_setData (s : State) (k : Nat) (d : Bytes) : (s.setData k d).ch.length = s.ch.length := by
  simp [State.setData]

/-- A payload write reaches the record it names, keeps that record's type id and bank, and no other record changes
(R205). -/
theorem State.getElem?_setData (s : State) (k j : Nat) (d : Bytes) :
    (s.setData k d).ch[j]? = if k = j then s.ch[j]?.map fun c => { c with data := d } else s.ch[j]? := by
  simp only [State.setData, List.getElem?_modify]
  split <;> simp

/-- The payload after a payload write. -/
theorem State.payload_setData (s : State) (k j : Nat) (d : Bytes) :
    (s.setData k d).payload j = if k = j ∧ j < s.ch.length then some d else s.payload j := by
  unfold State.payload
  rw [State.getElem?_setData]
  by_cases h : k = j
  · subst h
    rcases Nat.lt_or_ge k s.ch.length with hk | hk
    · simp [hk]
    · simp [Nat.not_lt.2 hk]
  · simp [h]

/-- A store write keeps R23 when the new payload fits. -/
theorem State.storeFits_setData (s : State) (k : Nat) {d : Bytes} (hd : d.length ≤ 65535) (h : storeFits s.ch) :
    storeFits (s.setData k d).ch := by
  intro c hc
  obtain ⟨j, hj⟩ := List.mem_iff_getElem?.1 hc
  rw [State.getElem?_setData] at hj
  split at hj
  · obtain ⟨e, _, rfl⟩ := Option.map_eq_some_iff.1 hj
    exact hd
  · exact h c (List.mem_iff_getElem?.2 ⟨j, hj⟩)

/-- An append either lands at the end with its index in `R[0]`, or is refused because the store is full (U6). -/
theorem State.appendRecord_cases (s : State) (name : String) (c : Chunk) (more : State → State) :
    (s.ch.length < s.params.maxChunks.toNat ∧ s.appendRecord name c more =
      .next (more ({ s with ch := s.ch ++ [c] }.setR 0 (BitVec.ofNat 32 s.ch.length))).complete) ∨
    (s.params.maxChunks.toNat ≤ s.ch.length ∧ s.appendRecord name c more = .refused (.overCapacity name)) := by
  unfold State.appendRecord
  by_cases h : s.ch.length < s.params.maxChunks.toNat
  · exact .inl ⟨h, if_pos h⟩
  · exact .inr ⟨by omega, if_neg h⟩

/-- The end of PARSE at a frame boundary: a commit, or a store past `MAX_CHUNKS` (R112, U6). -/
theorem State.commitParse_cases (s : State) :
    (s.staging.length ≤ s.params.maxChunks.toNat ∧ s.commitParse =
      .next ({ s with ch := s.staging, staging := [], seq := .idle }.setR 0
        (BitVec.ofNat 32 s.staging.length)).complete) ∨
    (s.params.maxChunks.toNat < s.staging.length ∧ s.commitParse = .refused (.overCapacity "PARSE")) := by
  unfold State.commitParse
  by_cases h : s.staging.length ≤ s.params.maxChunks.toNat
  · exact .inl ⟨h, if_pos h⟩
  · exact .inr ⟨by omega, if_neg h⟩

/-- A register read changes nothing but what the host saw and how many free values it drew (R61). -/
theorem State.readReg_frame (s : State) (reg : Reg) :
    s.readReg reg = { s with bus := (s.readReg reg).bus, freeCount := (s.readReg reg).freeCount } := by
  cases reg <;> rfl

/-- A buffer read changes nothing but what the host saw and how many free values it drew (R61). -/
theorem State.readBuf_frame (s : State) (m : Mem) (len addr : Word) :
    s.readBuf m len addr =
      { s with bus := (s.readBuf m len addr).bus, freeCount := (s.readBuf m len addr).freeCount } := by
  unfold State.readBuf
  split <;> rfl

/-- A result written to `DOUT` is what `DOUT[0..DOUTLEN)` reads, where its length fits `DOUTLEN` (R34). -/
theorem State.dout_setDout (s : State) {bs : Bytes} (h : bs.length < 2 ^ 32) : (s.setDout bs).dout = bs := by
  simp only [State.dout, State.setDout, BitVec.toNat_ofNat, Nat.mod_eq_of_lt h, Mem.readRange_ofBytes]

/-- A stream written to `OUT` is what `OUT[0..OUTLEN)` reads, where its length fits `OUTLEN` (R34, R132). -/
theorem State.out_setOut (s : State) {bs : Bytes} (h : bs.length < 2 ^ 32) : (s.setOut bs).out = bs := by
  simp only [State.out, State.setOut, BitVec.toNat_ofNat, Nat.mod_eq_of_lt h, Mem.readRange_ofBytes]

/-- The indices LOOKUP finds: those of the records of the type (R200). -/
theorem mem_indicesOfType {t k : Nat} {cs : List Chunk} :
    k ∈ indicesOfType t cs ↔ ∃ c, cs[k]? = some c ∧ c.typeId.toNat = t := by
  simp only [indicesOfType, List.mem_map, List.mem_filter, Prod.exists, beq_iff_eq]
  constructor
  · rintro ⟨c, i, ⟨hm, ht⟩, rfl⟩
    exact ⟨c, by simpa using List.mem_zipIdx_iff_getElem?.1 hm, ht⟩
  · rintro ⟨c, hc, ht⟩
    exact ⟨c, k, ⟨List.mem_zipIdx_iff_getElem?.2 (by simpa using hc), ht⟩, rfl⟩

/-- LOOKUP finds as many indices as the store has records of the type (R200). -/
theorem length_indicesOfType (t : Nat) (cs : List Chunk) :
    (indicesOfType t cs).length = cs.countP fun c => c.typeId.toNat == t := by
  have h : ∀ n, (cs.zipIdx n).countP (fun p => p.1.typeId.toNat == t) = cs.countP fun c => c.typeId.toNat == t := by
    induction cs with
    | nil => exact fun _ => rfl
    | cons c cs ih => intro n; simp only [List.zipIdx_cons, List.countP_cons, ih]
  simp [indicesOfType, ← List.countP_eq_length_filter, h]

/-- An index list takes four bytes an entry (R92). -/
@[simp] theorem length_encodeIndices (ks : List Nat) : (encodeIndices ks).length = 4 * ks.length := by
  induction ks with
  | nil => rfl
  | cons k ks ih => simp only [encodeIndices, List.flatMap_cons, List.length_append] at ih ⊢; simp [ih]; omega

end Sys2Proof.Machine
end

