-- ==== Sys2Proof/Laws/TextLaws.lean ====
section
/-! SUPPORT. What the text functions of the Code codec do. -/

namespace Sys2Proof.Machine

theorem textLines_ne_nil (d : Bytes) : textLines d ≠ [] := by
  cases d with
  | nil => simp [textLines]
  | cons b d =>
    simp only [textLines]
    split
    · simp
    · split <;> simp

theorem joinLines_cons {l : Bytes} {ls : List Bytes} (h : ls ≠ []) :
    joinLines (l :: ls) = l ++ [Config.lf] ++ joinLines ls := by
  cases ls with
  | nil => exact absurd rfl h
  | cons m ls => rfl

/-- `Join(Lines(d)) = d` (R181). -/
theorem joinLines_textLines (d : Bytes) : joinLines (textLines d) = d := by
  induction d with
  | nil => rfl
  | cons b d ih =>
    simp only [textLines]
    split
    · rename_i hb
      rw [joinLines_cons (textLines_ne_nil d), ih, hb]; rfl
    · split
      · rename_i h; exact absurd h (textLines_ne_nil d)
      · rename_i l ls h
        rw [h] at ih
        cases ls with
        | nil => simp only [joinLines] at ih ⊢; rw [ih]
        | cons m ls => simp only [joinLines, List.cons_append, List.append_assoc] at ih ⊢; rw [ih]

/-- No line holds an `LF` (R181). -/
theorem lf_notMem_textLines (d : Bytes) : ∀ l ∈ textLines d, Config.lf ∉ l := by
  induction d with
  | nil => simp [textLines]
  | cons b d ih =>
    simp only [textLines]
    split
    · intro l hl
      rcases List.mem_cons.1 hl with rfl | hl
      · simp
      · exact ih l hl
    · rename_i hb
      split
      · rename_i h; exact absurd h (textLines_ne_nil d)
      · rename_i l ls h
        rw [h] at ih
        intro m hm
        rcases List.mem_cons.1 hm with rfl | hm
        · simp only [List.mem_cons, not_or]
          exact ⟨fun h => hb h.symm, ih l List.mem_cons_self⟩
        · exact ih m (List.mem_cons_of_mem _ hm)

/-- The lines of a line, an `LF` and a text. -/
theorem textLines_append {l : Bytes} (h : Config.lf ∉ l) (d : Bytes) :
    textLines (l ++ Config.lf :: d) = l :: textLines d := by
  induction l with
  | nil => simp [textLines]
  | cons b l ih =>
    have hb : b ≠ Config.lf := fun e => h (by simp [e])
    have hl : Config.lf ∉ l := fun e => h (by simp [e])
    simp only [List.cons_append, textLines, hb, if_false, ih hl]

/-- A text without an `LF` is one line (R181). -/
theorem textLines_line {l : Bytes} (h : Config.lf ∉ l) : textLines l = [l] := by
  induction l with
  | nil => rfl
  | cons b l ih =>
    have hb : b ≠ Config.lf := fun e => h (by simp [e])
    simp only [textLines, hb, if_false, ih fun e => h (by simp [e])]

/-- The lines of lines ended by `LF` and a text after them (R181). -/
theorem textLines_flatMap {ls : List Bytes} (h : ∀ l ∈ ls, Config.lf ∉ l) (d : Bytes) :
    textLines ((ls.flatMap fun l => l ++ [Config.lf]) ++ d) = ls ++ textLines d := by
  induction ls with
  | nil => rfl
  | cons l ls ih =>
    rw [List.flatMap_cons, List.append_assoc, List.append_assoc, List.singleton_append,
      textLines_append (h l (by simp)), ih fun m hm => h m (by simp [hm])]
    rfl

/-- A header line begins with two hyphens (R183). -/
theorem isHeaderLine_iff {l : Bytes} : isHeaderLine l = true ↔ [hyphen, hyphen] <+: l := by
  match l with
  | [] => simp [isHeaderLine]
  | [b] => simp [isHeaderLine]
  | b :: c :: l => simp [isHeaderLine, List.cons_prefix_cons, @eq_comm _ b, @eq_comm _ c]

/-- `Put` on a key the mapping has not: appended (R185). -/
theorem putHeader_new {hs : List Header} {h : Header} (hn : ∀ g ∈ hs, g.1 ≠ h.1) : putHeader hs h = hs ++ [h] := by
  induction hs with
  | nil => rfl
  | cons g hs ih =>
    rw [putHeader, if_neg (hn g (by simp)), ih fun g hg => hn g (by simp [hg])]; rfl

/-- `Put` keeps the keys it has and adds at most its own (R185). -/
theorem mem_keys_putHeader {hs : List Header} {h : Header} {k : Bytes} :
    k ∈ (putHeader hs h).map (·.1) ↔ k = h.1 ∨ k ∈ hs.map (·.1) := by
  induction hs with
  | nil => simp [putHeader]
  | cons g hs ih =>
    simp only [putHeader]
    split
    · rename_i hg
      simp only [List.map_cons, List.mem_cons, hg]; tauto
    · simp only [List.map_cons, List.mem_cons, ih]; tauto

/-- `Put` keeps the keys distinct (R185). -/
theorem nodup_keys_putHeader {hs : List Header} (h : Header) (hd : (hs.map (·.1)).Nodup) :
    ((putHeader hs h).map (·.1)).Nodup := by
  induction hs with
  | nil => simp [putHeader]
  | cons g hs ih =>
    obtain ⟨hg, hr⟩ := List.nodup_cons.1 hd
    simp only [putHeader]
    split
    · rename_i he
      refine List.nodup_cons.2 ⟨fun hm => hg ?_, hr⟩
      show g.1 ∈ hs.map (·.1)
      rw [he]; exact hm
    · rename_i he
      refine List.nodup_cons.2 ⟨fun hm => ?_, ih hr⟩
      rcases mem_keys_putHeader.1 hm with h' | h'
      · exact he h'
      · exact hg h'

/-- The folded mapping has distinct keys (R185). -/
theorem nodup_keys_headerMap (hs : List Header) : ((headerMap hs).map (·.1)).Nodup := by
  have : ∀ acc : List Header, (acc.map (·.1)).Nodup → ((hs.foldl putHeader acc).map (·.1)).Nodup := by
    induction hs with
    | nil => exact fun acc h => h
    | cons h hs ih => exact fun acc ha => ih _ (nodup_keys_putHeader h ha)
  exact this [] (by simp)

/-- A length-prefixed field is taken exactly when its bytes are there (R93). -/
theorem takeField_some {bs d rest : Bytes} :
    takeField bs = some (d, rest) ↔ ∃ lo hi, bs = lo :: hi :: (d ++ rest) ∧ d.length = le16 lo hi := by
  constructor
  · intro h
    match bs, h with
    | lo :: hi :: body, h =>
      simp only [takeField] at h
      split at h
      · cases h
      · rename_i hl
        cases h
        exact ⟨lo, hi, by simp, by simp; omega⟩
  · rintro ⟨lo, hi, rfl, hl⟩
    simp only [takeField]
    rw [if_neg (by simp; omega), ← hl]
    simp

end Sys2Proof.Machine
end

