-- ==== Sys2Proof/Tests/Slice0.lean ====
section
/-! SUPPORT. The model's own tests: ill-formed terms refused, words written out from 30_encoding.md, one step per
instruction with the outcomes of spec/95_test_vectors.md, and for every statement with hypotheses a state that meets
them. -/

namespace Sys2Proof.Tests

open Sys2Proof Sys2Proof.Machine

/-! ## Helpers -/

/-- Whether a step answers a next state with a property. -/
def leaves (x : StepResult) (p : State → Bool) : Bool :=
  match x with
  | .next t => p t
  | .fault _ => false
  | .refused _ => false

theorem leaves_next {x : StepResult} {p : State → Bool} (h : leaves x p = true) : ∃ t, x = .next t ∧ p t = true := by
  cases x with
  | next t => exact ⟨t, rfl, h⟩
  | fault r => cases h
  | refused r => cases h

theorem leaves_any {x : StepResult} (h : leaves x (fun _ => true) = true) : ∃ t, x = .next t :=
  (leaves_next h).imp fun _ h => h.1

/-- Whether a step answers a next state whose error registers hold the given values. -/
def errs (x : StepResult) (code arg : Byte) (lo hi : Nat) : Bool :=
  leaves x fun t =>
    t.err == code && t.errArg == arg && t.errLo == BitVec.ofNat 32 lo && t.errHi == BitVec.ofNat 32 hi

/-- Six operand words. -/
def words (l : List Nat) : Vector Word 6 :=
  #v[BitVec.ofNat 32 (l.getD 0 0), BitVec.ofNat 32 (l.getD 1 0), BitVec.ofNat 32 (l.getD 2 0),
    BitVec.ofNat 32 (l.getD 3 0), BitVec.ofNat 32 (l.getD 4 0), BitVec.ofNat 32 (l.getD 5 0)]

/-- The reset state with a store and operands. -/
def withStore (cs : List Chunk) (a : List Nat) : State := { State.reset with ch := cs, a := words a }

/-- The same with bytes in `DIN`. -/
def withDin (cs : List Chunk) (a : List Nat) (d : Bytes) : State :=
  { withStore cs a with dinBuf := Mem.ofBytes d, dinLen := BitVec.ofNat 32 d.length }

/-- The reset state with bytes in `IN`. -/
def withIn (d : Bytes) : State := { State.reset with inBuf := Mem.ofBytes d, inLen := BitVec.ofNat 32 d.length }

/-- The payload of a record after a step. -/
def pay (t : State) (k : Nat) : Bytes := (t.payload k).getD []

def tiles : Chunk := ⟨1#5, 0#3, [0x21#8]⟩
def sprites : Chunk := ⟨2#5, 0#3, []⟩
def map : Chunk := ⟨4#5, 0#3, [0x09#8]⟩
def palette : Chunk := ⟨12#5, 0#3, List.replicate 48 0x10#8⟩
/-- `"--a:1\nold"` -/
def code : Chunk := ⟨5#5, 0#3, [0x2D#8, 0x2D#8, 0x61#8, 0x3A#8, 0x31#8, 0x0A#8, 0x6F#8, 0x6C#8, 0x64#8]⟩
def flags : Chunk := ⟨6#5, 0#3, [0xFF#8]⟩
def shortPalette : Chunk := ⟨12#5, 2#3, List.replicate 47 0x00#8⟩
def binary : Chunk := ⟨19#5, 7#3, [0xDE#8, 0xAD#8, 0x00#8]⟩

/-- One record of each kind. -/
def store : List Chunk := [tiles, sprites, map, palette, code, flags, shortPalette, binary]

/-- The store of one record of each kind, and operands. -/
def on (a : List Nat) : State := withStore store a

/-! ## Well-formedness -/

/-- A payload one byte longer than the length field can carry is refused (R79); the longest is accepted. -/
theorem test_long_payload_refused (bank : BitVec 3) (reserved : Byte) :
    (Instr.chunkTiles bank reserved (List.replicate 65536 0x00#8)).wellFormed = false ∧
      (Instr.chunkRsv31 bank reserved (List.replicate 65536 0x00#8)).wellFormed = false ∧
      (Instr.chunkTiles bank reserved (List.replicate 65535 0x00#8)).wellFormed = true := by
  simp only [Instr.wellFormed, payloadFits, List.length_replicate]; decide

/-! ## Decoding: words written out from R75 to R83 (header byte `bank` bits 7..5, type id bits 4..0; length low, high;
reserved; payload) and R87 -/

theorem test_decode_frames_low :
    decode .frame [0xA0#8, 0x01#8, 0x00#8, 0x7F#8, 0x5A#8] = .ok (.chunkRsv0 5#3 0x7F#8 [0x5A#8], []) ∧
    decode .frame [0xA1#8, 0x01#8, 0x00#8, 0x7F#8, 0x5A#8] = .ok (.chunkTiles 5#3 0x7F#8 [0x5A#8], []) ∧
    decode .frame [0xA2#8, 0x01#8, 0x00#8, 0x7F#8, 0x5A#8] = .ok (.chunkSprites 5#3 0x7F#8 [0x5A#8], []) ∧
    decode .frame [0xA3#8, 0x01#8, 0x00#8, 0x7F#8, 0x5A#8] = .ok (.chunkCoverDep 5#3 0x7F#8 [0x5A#8], []) ∧
    decode .frame [0xA4#8, 0x01#8, 0x00#8, 0x7F#8, 0x5A#8] = .ok (.chunkMap 5#3 0x7F#8 [0x5A#8], []) ∧
    decode .frame [0xA5#8, 0x01#8, 0x00#8, 0x7F#8, 0x5A#8] = .ok (.chunkCode 5#3 0x7F#8 [0x5A#8], []) ∧
    decode .frame [0xA6#8, 0x01#8, 0x00#8, 0x7F#8, 0x5A#8] = .ok (.chunkFlags 5#3 0x7F#8 [0x5A#8], []) ∧
    decode .frame [0xA7#8, 0x01#8, 0x00#8, 0x7F#8, 0x5A#8] = .ok (.chunkRsv7 5#3 0x7F#8 [0x5A#8], []) ∧
    decode .frame [0x28#8, 0x00#8, 0x00#8, 0xFF#8] = .ok (.chunkRsv8 1#3 0xFF#8 [], []) ∧
    decode .frame [0x29#8, 0x00#8, 0x00#8, 0xFF#8] = .ok (.chunkSamples 1#3 0xFF#8 [], []) ∧
    decode .frame [0x2A#8, 0x00#8, 0x00#8, 0xFF#8] = .ok (.chunkWaveform 1#3 0xFF#8 [], []) ∧
    decode .frame [0x2B#8, 0x00#8, 0x00#8, 0xFF#8] = .ok (.chunkRsv11 1#3 0xFF#8 [], []) ∧
    decode .frame [0x2C#8, 0x00#8, 0x00#8, 0xFF#8] = .ok (.chunkPalette 1#3 0xFF#8 [], []) ∧
    decode .frame [0x2D#8, 0x00#8, 0x00#8, 0xFF#8] = .ok (.chunkPatternsDep 1#3 0xFF#8 [], []) ∧
    decode .frame [0x2E#8, 0x00#8, 0x00#8, 0xFF#8] = .ok (.chunkMusic 1#3 0xFF#8 [], []) ∧
    decode .frame [0x2F#8, 0x00#8, 0x00#8, 0xFF#8] = .ok (.chunkPatterns 1#3 0xFF#8 [], []) := by
  refine ⟨rfl, rfl, rfl, rfl, rfl, rfl, rfl, rfl, rfl, rfl, rfl, rfl, rfl, rfl, rfl, rfl⟩

theorem test_decode_frames_high :
    decode .frame [0xF0#8, 0x02#8, 0x00#8, 0x00#8, 0x01#8, 0x02#8, 0x03#8] =
      .ok (.chunkZcodeDep 7#3 0x00#8 [0x01#8, 0x02#8], [0x03#8]) ∧
    decode .frame [0xF1#8, 0x02#8, 0x00#8, 0x00#8, 0x01#8, 0x02#8, 0x03#8] =
      .ok (.chunkDefault 7#3 0x00#8 [0x01#8, 0x02#8], [0x03#8]) ∧
    decode .frame [0xF2#8, 0x02#8, 0x00#8, 0x00#8, 0x01#8, 0x02#8, 0x03#8] =
      .ok (.chunkScreen 7#3 0x00#8 [0x01#8, 0x02#8], [0x03#8]) ∧
    decode .frame [0xF3#8, 0x02#8, 0x00#8, 0x00#8, 0x01#8, 0x02#8, 0x03#8] =
      .ok (.chunkBinary 7#3 0x00#8 [0x01#8, 0x02#8], [0x03#8]) ∧
    decode .frame [0x54#8, 0x00#8, 0x00#8, 0x01#8] = .ok (.chunkRsv20 2#3 0x01#8 [], []) ∧
    decode .frame [0x55#8, 0x00#8, 0x00#8, 0x01#8] = .ok (.chunkRsv21 2#3 0x01#8 [], []) ∧
    decode .frame [0x56#8, 0x00#8, 0x00#8, 0x01#8] = .ok (.chunkRsv22 2#3 0x01#8 [], []) ∧
    decode .frame [0x57#8, 0x00#8, 0x00#8, 0x01#8] = .ok (.chunkRsv23 2#3 0x01#8 [], []) ∧
    decode .frame [0x58#8, 0x00#8, 0x00#8, 0x01#8] = .ok (.chunkRsv24 2#3 0x01#8 [], []) ∧
    decode .frame [0x59#8, 0x00#8, 0x00#8, 0x01#8] = .ok (.chunkRsv25 2#3 0x01#8 [], []) ∧
    decode .frame [0x5A#8, 0x00#8, 0x00#8, 0x01#8] = .ok (.chunkRsv26 2#3 0x01#8 [], []) ∧
    decode .frame [0x5B#8, 0x00#8, 0x00#8, 0x01#8] = .ok (.chunkRsv27 2#3 0x01#8 [], []) ∧
    decode .frame [0x5C#8, 0x00#8, 0x00#8, 0x01#8] = .ok (.chunkRsv28 2#3 0x01#8 [], []) ∧
    decode .frame [0x5D#8, 0x00#8, 0x00#8, 0x01#8] = .ok (.chunkRsv29 2#3 0x01#8 [], []) ∧
    decode .frame [0x5E#8, 0x00#8, 0x00#8, 0x01#8] = .ok (.chunkRsv30 2#3 0x01#8 [], []) ∧
    decode .frame [0x5F#8, 0x00#8, 0x00#8, 0x01#8] = .ok (.chunkRsv31 2#3 0x01#8 [], []) := by
  refine ⟨rfl, rfl, rfl, rfl, rfl, rfl, rfl, rfl, rfl, rfl, rfl, rfl, rfl, rfl, rfl, rfl⟩

theorem test_decode_commands :
    decodeCommand 0x01#8 = .ok .parse ∧ decodeCommand 0x02#8 = .ok .serialize ∧
    decodeCommand 0x10#8 = .ok .setPixel ∧ decodeCommand 0x11#8 = .ok .getPixel ∧
    decodeCommand 0x20#8 = .ok .setColor ∧ decodeCommand 0x21#8 = .ok .getColor ∧
    decodeCommand 0x30#8 = .ok .setTile ∧ decodeCommand 0x31#8 = .ok .getTile ∧
    decodeCommand 0x40#8 = .ok .setFlags ∧ decodeCommand 0x41#8 = .ok .getFlags ∧
    decodeCommand 0x50#8 = .ok .getSource ∧ decodeCommand 0x51#8 = .ok .setBody ∧
    decodeCommand 0x52#8 = .ok .setHeaders ∧ decodeCommand 0x60#8 = .ok .lookup ∧
    decodeCommand 0x61#8 = .ok .hasType ∧ decodeCommand 0x62#8 = .ok .create ∧
    decodeCommand 0x63#8 = .ok .rdChunk ∧ decodeCommand 0x64#8 = .ok .wrData ∧
    decodeCommand 0x65#8 = .ok .importColors := by
  refine ⟨rfl, rfl, rfl, rfl, rfl, rfl, rfl, rfl, rfl, rfl, rfl, rfl, rfl, rfl, rfl, rfl, rfl, rfl, rfl⟩

/-- A short header, a short payload, and opcodes R89 reserves, are rejected by name. -/
theorem test_decode_rejects :
    decode .frame [0x0C#8, 0x0A#8, 0x00#8] = .error .truncatedHeader ∧
    decode .frame [0x0C#8, 0x00#8, 0x01#8, 0x00#8, 0xAA#8] = .error .truncatedPayload ∧
    decode .command [] = .error .noOpcode ∧ decode .command [0x00#8] = .error (.reservedOpcode 0x00#8) ∧
    decode .command [0x12#8] = .error (.reservedOpcode 0x12#8) ∧
    decode .command [0xFF#8] = .error (.reservedOpcode 0xFF#8) := ⟨rfl, rfl, rfl, rfl, rfl, rfl⟩

/-- Table words of both formats, a frame with a length of 1 whose payload byte is 0 among them (R83). -/
theorem test_table_words :
    decodeTableWord 32 0x0C = some (.chunkPalette 0#3 0x00#8 []) ∧
    decodeTableWord 32 0x7F00012C = some (.chunkPalette 1#3 0x7F#8 [0x00#8]) ∧
    decodeTableWord 8 0x10 = some .setPixel ∧ decodeTableWord 8 0x65 = some .importColors ∧
    decodeTableWord 32 0x1F = some (.chunkRsv31 0#3 0x00#8 []) := by decide

/-- The next step runs the word `withFetchWord` places: a frame at `POS`, and a command (vectors 2.2, 2.10). -/
theorem test_fetch_word :
    leaves (step (State.reset.withFetchWord 32 0x7F00012C)) (fun t =>
      t.staging == [⟨12#5, 1#3, [0x00#8]⟩] && t.pos == 5#32) = true ∧
    leaves (step (State.reset.withFetchWord 8 0x61)) (fun t => t.err == 0#8 && t.r[0] == 0#32) = true := by decide

/-! ## The commands, on the rows of spec/95_test_vectors.md -/

/-- 2.2: two frames, the second's reserved byte lost; and P-row `01 01 00 00 21 04 02 00 00 07`. -/
theorem test_parse :
    leaves (exec .parse (withIn [0x0C#8, 0x03#8, 0x00#8, 0x00#8, 0x11#8, 0x22#8, 0x33#8, 0x05#8, 0x00#8, 0x00#8,
      0x7F#8])) (fun t => t.ch == [⟨12#5, 0#3, [0x11#8, 0x22#8, 0x33#8]⟩, ⟨5#5, 0#3, []⟩] && t.pos == 11#32 &&
        t.r[0] == 2#32 && t.eoi) = true ∧
    leaves (exec .parse { withIn [0x01#8, 0x01#8, 0x00#8, 0x00#8, 0x21#8, 0x04#8, 0x02#8, 0x00#8, 0x00#8, 0x07#8] with
      ch := [binary] }) (fun t => t.err == 3#8 && t.pos == 5#32 && t.ch == [binary] && !t.eoi) = true := by decide

/-- 2.3: interior zeros kept, the all-zero payload gives length 0; and the bank byte under both shifts. -/
theorem test_serialize :
    leaves (exec .serialize (withStore [⟨1#5, 0#3, [0x21#8, 0x00#8, 0x00#8, 0x00#8, 0x00#8, 0xA0#8]⟩,
      ⟨4#5, 0#3, [0x00#8, 0x00#8, 0x00#8]⟩] [])) (fun t => t.out == [0x01#8, 0x06#8, 0x00#8, 0x00#8, 0x21#8, 0x00#8,
        0x00#8, 0x00#8, 0x00#8, 0xA0#8, 0x04#8, 0x00#8, 0x00#8, 0x00#8] && t.r[0] == 14#32) = true ∧
    leaves (exec .serialize (withStore [⟨1#5, 1#3, [0x21#8]⟩] [])) (fun t =>
      t.out == [0x09#8, 0x01#8, 0x00#8, 0x00#8, 0x21#8]) = true ∧
    leaves (exec .serialize { withStore [⟨1#5, 1#3, [0x21#8]⟩] [] with params := ⟨.five, 9#32⟩, cfgFill := 0xAB#8 })
      (fun t => t.out == [0x21#8, 0x01#8, 0x00#8, 0xAB#8, 0x21#8]) = true := by decide

/-- 2.4: `SETPIXEL 0, 0, 3, 1, 10` grows the payload; the low nibble of a byte alone; a Sprites id. -/
theorem test_setPixel :
    leaves (exec .setPixel (on [0, 0, 3, 1, 10])) (fun t =>
      pay t 0 == [0x21#8, 0x00#8, 0x00#8, 0x00#8, 0x00#8, 0xA0#8]) = true ∧
    leaves (exec .setPixel (on [0, 0, 0, 0, 0])) (fun t => pay t 0 == [0x20#8]) = true ∧
    leaves (exec .setPixel (on [1, 256, 0, 0, 1])) (fun t => pay t 1 == [0x01#8]) = true := by decide

/-- 2.4, errors: the id ranges of both variants, the full 32-bit compare, and the first fault of several. -/
theorem test_setPixel_errors :
    errs (exec .setPixel (on [0, 256, 0, 0, 1])) 1#8 0x01#8 0 255 = true ∧
    errs (exec .setPixel (on [0, 0, 0x80000000, 0, 0])) 1#8 0x02#8 0 7 = true ∧
    errs (exec .setPixel (on [0, 0, 0, 8, 1])) 1#8 0x03#8 0 7 = true ∧
    errs (exec .setPixel (on [0, 0, 0, 0, 16])) 1#8 0x04#8 0 15 = true ∧
    errs (exec .setPixel (on [1, 5, 9, 9, 99])) 1#8 0x01#8 256 511 = true ∧
    errs (exec .setPixel (on [2, 0, 0, 0, 0])) 1#8 0xFD#8 1 2 = true ∧
    errs (exec .setPixel (on [8, 0, 0, 0, 0])) 1#8 0x00#8 0 7 = true := by decide

/-- 2.4: both nibbles of `21`, a pixel beyond the end, and `A[4]` not read. -/
theorem test_getPixel :
    leaves (exec .getPixel (on [0, 0, 0, 0, 99])) (fun t => t.r[0] == 1#32) = true ∧
    leaves (exec .getPixel (on [0, 0, 1, 0])) (fun t => t.r[0] == 2#32) = true ∧
    leaves (exec .getPixel (on [0, 255, 7, 7])) (fun t => t.r[0] == 0#32 && t.ch == store) = true ∧
    errs (exec .getPixel (on [1, 0, 0, 0])) 1#8 0x01#8 256 511 = true := by decide

/-- 2.5: green omitted and not checked. -/
theorem test_setColor :
    leaves (exec .setColor (on [3, 2, 5, 0xFF, 0x999, 0x01])) (fun t =>
      (pay t 3).take 10 == [0x10#8, 0x10#8, 0x10#8, 0x10#8, 0x10#8, 0x10#8, 0xFF#8, 0x10#8, 0x01#8, 0x10#8] &&
        (pay t 3).length == 48) = true ∧
    leaves (exec .setColor (on [3, 15, 7, 1, 2, 3])) (fun t => (pay t 3).drop 44 == [0x10#8, 1#8, 2#8, 3#8]) = true := by
  decide

/-- 2.5, errors: each operand in order, then the size, mask 0 included. -/
theorem test_setColor_errors :
    errs (exec .setColor (on [6, 16, 7, 1, 1, 1])) 1#8 0x01#8 0 15 = true ∧
    errs (exec .setColor (on [3, 0, 8, 0, 0, 0])) 1#8 0x02#8 0 7 = true ∧
    errs (exec .setColor (on [3, 0, 7, 256, 0, 0])) 1#8 0x03#8 0 255 = true ∧
    errs (exec .setColor (on [3, 0, 7, 0, 256, 0])) 1#8 0x04#8 0 255 = true ∧
    errs (exec .setColor (on [3, 0, 7, 0, 0, 256])) 1#8 0x05#8 0 255 = true ∧
    errs (exec .setColor (on [6, 0, 0, 0, 0, 0])) 5#8 0#8 0 0 = true := by decide

/-- R97 (b): `SETCOLOR k, id, r, g, b` expanded; an omitted channel gives 0 and no mask bit; a supplied 256 is passed
on whole and the block answers operand 3 with its range 0..255. -/
theorem test_setColorWords :
    setColorWords 3#32 2#32 (some 0xFF#32) none (some 1#32) = [3#32, 2#32, 5#32, 0xFF#32, 0#32, 1#32] ∧
    setColorWords 3#32 0#32 (some 256#32) none none = [3#32, 0#32, 1#32, 256#32, 0#32, 0#32] ∧
    errs (exec .setColor (on ((setColorWords 3#32 0#32 (some 256#32) none none).map BitVec.toNat))) 1#8 0x03#8 0 255 =
      true := by decide

/-- 2.5: three channels, `R[3]` kept; a 47-byte palette. -/
theorem test_getColor :
    leaves (exec .getColor { withStore [⟨12#5, 0#3, (List.range 48).map (BitVec.ofNat 8)⟩] [0, 1] with
      r := #v[9#32, 9#32, 9#32, 9#32] }) (fun t => t.r == #v[3#32, 4#32, 5#32, 9#32]) = true ∧
    errs (exec .getColor (on [6, 0])) 5#8 0#8 0 0 = true := by decide

/-- 2.6: a cell beyond the end, and a zero that still grows the payload. -/
theorem test_setTile :
    leaves (exec .setTile (on [2, 2, 0, 7])) (fun t => pay t 2 == [9#8, 0#8, 7#8]) = true ∧ mapByte 2 1 = 242 ∧
    leaves (exec .setTile (withStore [⟨4#5, 0#3, []⟩] [0, 5, 0, 0])) (fun t =>
      pay t 0 == [0#8, 0#8, 0#8, 0#8, 0#8, 0#8]) = true ∧
    errs (exec .setTile (on [2, 240, 240, 256])) 1#8 0x01#8 0 239 = true := by decide

/-- 2.6: a stored cell, and cells beyond the end. -/
theorem test_getTile :
    leaves (exec .getTile (on [2, 0, 0])) (fun t => t.r[0] == 9#32) = true ∧
    leaves (exec .getTile (on [2, 239, 239])) (fun t => t.r[0] == 0#32 && t.ch == store) = true ∧
    errs (exec .getTile (on [2, 0, 240])) 1#8 0x02#8 0 239 = true := by decide

/-- 2.7: the whole byte overwritten, bits above `count` ignored. -/
theorem test_setFlags :
    leaves (exec .setFlags (on [5, 0, 3, 5])) (fun t => pay t 5 == [0x05#8]) = true ∧
    leaves (exec .setFlags (on [5, 3, 2, 0xFFFFFFFF])) (fun t => pay t 5 == [0xFF#8, 0#8, 0#8, 0x03#8]) = true ∧
    errs (exec .setFlags (on [5, 512, 9, 0])) 1#8 0x01#8 0 511 = true ∧
    errs (exec .setFlags (on [5, 0, 9, 0])) 1#8 0x02#8 0 8 = true := by decide

/-- 2.7: a present byte and a missing one. -/
theorem test_getFlags :
    leaves (exec .getFlags (on [5, 0])) (fun t => t.r[0] == 0xFF#32) = true ∧
    leaves (exec .getFlags (on [5, 511])) (fun t => t.r[0] == 0#32) = true ∧
    errs (exec .getFlags (on [5, 512])) 1#8 0x01#8 0 511 = true := by decide

/-- 2.9: `--a:1` over `old` gives one header and the body; an empty payload gives nothing. -/
theorem test_getSource :
    leaves (exec .getSource (on [4])) (fun t => t.r == #v[1#32, 6#32, 3#32, 0#32] && t.doutLen == 9#32 &&
      t.dout == [0x01#8, 0x00#8, 0x61#8, 0x01#8, 0x00#8, 0x31#8, 0x6F#8, 0x6C#8, 0x64#8]) = true ∧
    leaves (exec .getSource (withStore [⟨5#5, 0#3, []⟩] [0])) (fun t => t.r == #v[0#32, 0#32, 0#32, 0#32] &&
      t.doutLen == 0#32) = true := by decide

/-- 2.9: `DIN <- "new"`; `SETBODY 1` gives `"-- a: 1\nnew"`. -/
theorem test_setBody :
    leaves (exec .setBody (withDin store [4] [0x6E#8, 0x65#8, 0x77#8])) (fun t =>
      pay t 4 == [0x2D#8, 0x2D#8, 0x20#8, 0x61#8, 0x3A#8, 0x20#8, 0x31#8, 0x0A#8, 0x6E#8, 0x65#8, 0x77#8]) = true := by
  decide

/-- 2.9: two keys, the shorter one padded after its colon, the second value empty. -/
theorem test_setHeaders :
    leaves (exec .setHeaders (withDin store [4] [0x02#8, 0x00#8, 0x62#8, 0x79#8, 0x01#8, 0x00#8, 0x6D#8,
      0x01#8, 0x00#8, 0x74#8, 0x00#8, 0x00#8])) (fun t =>
        pay t 4 == [0x2D#8, 0x2D#8, 0x20#8, 0x62#8, 0x79#8, 0x3A#8, 0x20#8, 0x6D#8, 0x0A#8,
          0x2D#8, 0x2D#8, 0x20#8, 0x74#8, 0x3A#8, 0x20#8, 0x20#8, 0x0A#8, 0x6F#8, 0x6C#8, 0x64#8]) = true := by decide

/-- 2.9: a value cut short. -/
theorem test_setHeaders_malformed :
    errs (exec .setHeaders (withDin store [4] [0x01#8, 0x00#8, 0x61#8, 0x05#8, 0x00#8, 0x62#8])) 1#8 0xFE#8 0 6 =
      true := by decide

/-- 2.10: two palettes of different banks; a type above 31. -/
theorem test_lookup :
    leaves (exec .lookup (on [12])) (fun t => t.r[0] == 2#32 &&
      t.dout == [3#8, 0#8, 0#8, 0#8, 6#8, 0#8, 0#8, 0#8]) = true ∧
    errs (exec .lookup (on [32])) 1#8 0x00#8 0 31 = true := by decide

/-- 2.10. -/
theorem test_hasType :
    leaves (exec .hasType (on [12])) (fun t => t.r[0] == 1#32) = true ∧
    leaves (exec .hasType (on [31])) (fun t => t.r[0] == 0#32) = true ∧
    errs (exec .hasType (on [32])) 1#8 0x00#8 0 31 = true := by decide

/-- 2.11: `CREATE 19, 7` keeps the trailing zero; the type is checked before the bank. -/
theorem test_create :
    leaves (exec .create (withDin [palette] [19, 7] [0xDE#8, 0xAD#8, 0x00#8])) (fun t =>
      t.ch == [palette, binary] && t.r[0] == 1#32) = true ∧
    errs (exec .create (on [40, 9])) 2#8 0#8 0 0 = true ∧
    errs (exec .create (on [19, 8])) 1#8 0x01#8 0 7 = true := by decide

/-- 2.11. -/
theorem test_rdChunk :
    leaves (exec .rdChunk (on [7])) (fun t => t.r == #v[19#32, 7#32, 3#32, 0#32] &&
      t.dout == [0xDE#8, 0xAD#8, 0x00#8]) = true ∧
    errs (exec .rdChunk (withStore [] [0])) 1#8 0x00#8 0 0 = true := by decide

/-- 2.11. -/
theorem test_wrData :
    leaves (exec .wrData (withDin store [7] [0x00#8, 0x00#8])) (fun t => t.ch[7]? == some ⟨19#5, 7#3, [0#8, 0#8]⟩) =
      true ∧
    errs (exec .wrData (on [9])) 1#8 0x00#8 0 7 = true := by decide

/-- Sixteen colours. -/
def colors : Bytes := (List.range 48).map fun i => BitVec.ofNat 8 (i + 1)

/-- 2.12: extra bytes, bank and the second palette kept; a new record where there is none. -/
theorem test_import :
    leaves (exec .importColors (withDin [⟨12#5, 2#3, List.replicate 48 0#8 ++ [0xEE#8]⟩, palette] [] colors)) (fun t =>
      t.ch == [⟨12#5, 2#3, colors ++ [0xEE#8]⟩, palette] && t.r[0] == 0#32 && t.r[1] == 0#32) = true ∧
    leaves (exec .importColors (withDin [tiles] [] colors)) (fun t =>
      t.ch == [tiles, ⟨12#5, 0#3, colors⟩] && t.r[0] == 1#32 && t.r[1] == 1#32) = true := by decide

/-- 2.12: the count before the size, and the first palette only. -/
theorem test_import_errors :
    errs (exec .importColors (withDin [shortPalette, palette] [] colors)) 5#8 0#8 0 0 = true ∧
    errs (exec .importColors (withDin [shortPalette, palette] [] (colors.take 10))) 4#8 0#8 0 0 = true := by decide

/-- 2.8: `ParseHeaderLine` on `"---- a b :  c : d \r"` and `Format` of (title, x), (by, me). -/
theorem test_text :
    parseHeaderLine [0x2D#8, 0x2D#8, 0x2D#8, 0x2D#8, 0x20#8, 0x61#8, 0x20#8, 0x62#8, 0x20#8, 0x3A#8, 0x20#8, 0x20#8,
      0x63#8, 0x20#8, 0x3A#8, 0x20#8, 0x64#8, 0x20#8, 0x0D#8] =
      ([0x61#8, 0x20#8, 0x62#8], [0x63#8, 0x20#8, 0x3A#8, 0x20#8, 0x64#8]) ∧
    formatSource [([0x74#8, 0x69#8, 0x74#8, 0x6C#8, 0x65#8], [0x78#8]), ([0x62#8, 0x79#8], [0x6D#8, 0x65#8])] [0x70#8] =
      [0x2D#8, 0x2D#8, 0x20#8, 0x74#8, 0x69#8, 0x74#8, 0x6C#8, 0x65#8, 0x3A#8, 0x20#8, 0x78#8, 0x0A#8,
        0x2D#8, 0x2D#8, 0x20#8, 0x62#8, 0x79#8, 0x3A#8, 0x20#8, 0x20#8, 0x20#8, 0x20#8, 0x6D#8, 0x65#8, 0x0A#8,
        0x70#8] := by decide

/-- 2.13: a reserved opcode, and the error registers cleared by the next command. -/
theorem test_reserved_opcode :
    errs (step { on [1] with cmd := 0x66#8, seq := .issued }) 1#8 0xFF#8 0 0 = true ∧
    leaves (step { on [1] with cmd := 0x61#8, seq := .issued, err := 1#8, errArg := 0xFF#8 }) (fun t =>
      t.err == 0#8 && t.errArg == 0#8 && t.r[0] == 1#32) = true := by decide

/-! ## For every statement with hypotheses, states and operands that meet them, at the boundaries of their ranges -/

/-- DecodeGivesBackEveryInstruction, EncodeGivesBackTheBytesRead, FramePassAppendsTheRecord. -/
theorem witness_encoding :
    (Instr.chunkMap 7#3 0xFF#8 [0x00#8]).wellFormed = true ∧ Instr.parse.wellFormed = true ∧
    decode .frame [0xE4#8, 0x01#8, 0x00#8, 0xFF#8, 0x00#8, 0x33#8] = .ok (.chunkMap 7#3 0xFF#8 [0x00#8], [0x33#8]) ∧
    decode .command [0x01#8, 0x33#8] = .ok (.parse, [0x33#8]) ∧
    (Instr.chunkRsv0 0#3 0x00#8 []).form = .frame ⟨0#5, 0#3, 0x00#8, []⟩ ∧
    (Instr.chunkRsv31 7#3 0x00#8 []).form = .frame ⟨31#5, 7#3, 0x00#8, []⟩ := ⟨rfl, rfl, rfl, rfl, rfl, rfl⟩

/-- ReservedOpcodeRaises, CommandErrorTable: the ends of every reserved range. -/
theorem witness_reserved :
    (∀ n ∈ [0x00, 0x03, 0x0F, 0x12, 0x1F, 0x22, 0x2F, 0x32, 0x3F, 0x42, 0x4F, 0x53, 0x5F, 0x66, 0xFF],
      reservedOpcode n) ∧
    ∃ s t : State, s.seq = .issued ∧ reservedOpcode s.cmd.toNat ∧ step s = .next t := by
  refine ⟨by unfold reservedOpcode; decide, { State.reset with cmd := 0x66#8, seq := .issued }, _, rfl, ?_, rfl⟩
  unfold reservedOpcode; decide

/-- A stream cut inside a header, and one cut inside a payload by one byte. -/
theorem witness_cutFrame : cutFrame [0x0C#8, 0x0A#8, 0x00#8] ∧ cutFrame [0x04#8, 0x02#8, 0x00#8, 0x00#8, 0x07#8] :=
  ⟨.inl ⟨by decide, by decide⟩, .inr ⟨_, _, _, _, _, rfl, by decide⟩⟩

/-- StepRunsTheDecodedInstruction, clause by clause. -/
theorem witness_step :
    (∃ (s : State) (i : Instr) (rest : Bytes), s.seq = .issued ∧ decode .command [s.cmd] = .ok (i, rest)) ∧
    (∃ (s : State) (i : Instr) (rest : Bytes), s.seq = .parsing ∧ s.pos ≠ s.inLen ∧
      decode .frame s.streamBytes = .ok (i, rest)) ∧
    (∃ s : State, s.seq = .parsing ∧ s.pos ≠ s.inLen ∧ s.streamBytes = []) ∧
    (∃ s : State, s.seq = .parsing ∧ s.pos ≠ s.inLen ∧ cutFrame s.streamBytes) ∧
    (∃ s : State, s.seq = .parsing ∧ s.pos = s.inLen ∧ s.staging.length = s.params.maxChunks.toNat) :=
  ⟨⟨{ State.reset with cmd := 0x61#8, seq := .issued }, _, _, rfl, rfl⟩,
    ⟨{ withIn [0x05#8, 0x00#8, 0x00#8, 0x00#8] with seq := .parsing }, _, _, rfl, by decide, rfl⟩,
    ⟨{ State.reset with pos := 1#32, seq := .parsing }, rfl, by decide, rfl⟩,
    ⟨{ withIn [0x0C#8] with seq := .parsing }, rfl, by decide, .inl ⟨by decide, by decide⟩⟩,
    ⟨{ State.reset with staging := [map], seq := .parsing, params := ⟨.three, 1#32⟩ }, rfl, rfl, rfl⟩⟩

/-- ResetIsTotalAndTheBlockWaits, EveryCommandIsDefinedOnReset. -/
theorem witness_reset :
    (∃ (s : State) (rest : List HostAccess), s.seq = .idle ∧ s.host = .reset :: rest) ∧
    (∃ s : State, s.seq = .idle ∧ s.host = []) ∧
    (words [31])[0].toNat = 31 ∧ registered (words [19, 7])[0].toNat = true ∧ (words [19, 7])[1].toNat = 7 ∧
    (65535#32).toNat = 65535 :=
  ⟨⟨{ on [] with host := [.reset] }, [], rfl, rfl⟩, ⟨State.reset, rfl, rfl⟩, by decide, by decide, by decide, by decide⟩

/-- EveryStreamIsFramesThenATail: a stream and its one decomposition. -/
theorem witness_stream :
    ∃ (bs : Bytes) (fs : List Frame) (tail : Bytes), bs = fs.flatMap encodeFrame ++ tail ∧
      (∀ f ∈ fs, f.payload.length ≤ 65535) ∧ cutFrame tail :=
  ⟨[0x05#8, 0x00#8, 0x00#8, 0x00#8, 0x0C#8], [⟨5#5, 0#3, 0#8, []⟩], [0x0C#8], rfl, by decide,
    .inl ⟨by decide, by decide⟩⟩

/-- ParseReplacesTheStore (a store that `MAX_CHUNKS` = 1 just holds), TruncatedStreamKeepsTheStore,
EmptyStreamGivesTheEmptyStore, ParseIsTheRunOfItsFrames. -/
theorem witness_parse :
    (∃ (s : State) (fs : List Frame), s.inBytes = fs.flatMap encodeFrame ∧ (∀ f ∈ fs, f.payload.length ≤ 65535) ∧
      fs.length = s.params.maxChunks.toNat) ∧
    (∃ (s : State) (fs : List Frame) (tail : Bytes), s.inBytes = fs.flatMap encodeFrame ++ tail ∧
      (∀ f ∈ fs, f.payload.length ≤ 65535) ∧ cutFrame tail) ∧
    (∃ s : State, s.inLen = 0#32) ∧ (∃ s : State, s.seq = .idle ∧ s.staging = []) :=
  ⟨⟨{ withIn [0x05#8, 0x00#8, 0x00#8, 0x00#8] with params := ⟨.three, 1#32⟩ }, [⟨5#5, 0#3, 0#8, []⟩], by decide,
      by decide, by decide⟩,
    ⟨withIn [0x05#8, 0x00#8, 0x00#8, 0x00#8, 0x0C#8], [⟨5#5, 0#3, 0#8, []⟩], [0x0C#8], by decide, by decide,
      .inl ⟨by decide, by decide⟩⟩,
    ⟨State.reset, rfl⟩, ⟨State.reset, rfl, rfl⟩⟩

/-- StripRemovesExactlyTheTrailingZeros: a position from which on all bytes are zero. -/
theorem witness_strip : ∃ (d : Bytes) (m : Nat), ∀ a, m ≤ a → byteAt d a = 0#8 :=
  ⟨[1#8, 0#8], 1, fun a h => match a, h with
    | 1, _ => rfl
    | _ + 2, _ => rfl⟩

/-- SerializeWritesEveryFrame, SerializeThenParse (a record of bank 7 under shift 5, `MAX_CHUNKS` = 1),
ParseThenSerialize. -/
theorem witness_serialize :
    (∃ (s : State) (o : Bytes), o = (s.ch.flatMap fun c =>
      [BitVec.ofNat 8 (c.bank.toNat * 2 ^ s.params.bankShift.amount + c.typeId.toNat),
        BitVec.ofNat 8 (stripTZ c.data).length, BitVec.ofNat 8 ((stripTZ c.data).length / 256), s.cfgFill] ++
      stripTZ c.data) ∧ o.length < 2 ^ 32) ∧
    (∃ s t : State, storeFits s.ch ∧ s.ch.length = s.params.maxChunks.toNat ∧ exec .serialize s = .next t ∧
      ∃ (k : Nat) (c : Chunk), s.ch[k]? = some c ∧ s.params.bankShift = .five ∧ c.bank = 7#3) ∧
    (∃ (s t : State) (fs : List Frame), s.inBytes = fs.flatMap encodeFrame ∧
      (∀ f ∈ fs, f.payload.length ≤ 65535) ∧ exec .parse s = .next t) := by
  refine ⟨⟨withStore [binary] [], _, rfl, by decide⟩, ?_, ?_⟩
  · obtain ⟨t, ht⟩ : ∃ t, exec .serialize { withStore [binary] [] with params := ⟨.five, 1#32⟩ } = .next t :=
      leaves_any (by decide)
    exact ⟨_, t, by simp [withStore, storeFits, binary], by decide, ht, 0, binary, rfl, rfl, rfl⟩
  · obtain ⟨t, ht⟩ : ∃ t, exec .parse (withIn [0x05#8, 0x00#8, 0x00#8, 0x00#8]) = .next t := leaves_any (by decide)
    exact ⟨_, t, [⟨5#5, 0#3, 0#8, []⟩], by decide, by decide, ht⟩

/-- The selector of every codec command out of range by one, and records of types next to the accepted ones. -/
theorem witness_select :
    (∃ s : State, s.ch.length = s.arg 0) ∧
    (∃ (s : State) (c : Chunk), s.ch[s.arg 0]? = some c ∧ c.typeId.toNat ∉ [1, 2]) ∧
    (∃ (s : State) (c : Chunk), s.ch[s.arg 0]? = some c ∧ c.typeId.toNat ∉ [12]) ∧
    (∃ (s : State) (c : Chunk), s.ch[s.arg 0]? = some c ∧ c.typeId.toNat ∉ [4]) ∧
    (∃ (s : State) (c : Chunk), s.ch[s.arg 0]? = some c ∧ c.typeId.toNat ∉ [6]) ∧
    (∃ (s : State) (c : Chunk), s.ch[s.arg 0]? = some c ∧ c.typeId.toNat ∉ [5]) :=
  ⟨⟨on [8], by decide⟩, ⟨on [2], map, by decide⟩, ⟨on [7], binary, by decide⟩, ⟨on [4], code, by decide⟩,
    ⟨on [4], code, by decide⟩, ⟨on [2], map, by decide⟩⟩

/-- SetPixelWritesOneNibble, GetPixelReadsOneNibble: every clause at its first failing and its last legal value. -/
theorem witness_pixel :
    (∃ (s : State) (c : Chunk), s.ch[s.arg 0]? = some c ∧ c.typeId = 1#5 ∧ s.arg 1 = 256) ∧
    (∃ (s : State) (c : Chunk), s.ch[s.arg 0]? = some c ∧ c.typeId = 2#5 ∧ s.arg 1 = 255) ∧
    (∃ (s : State) (c : Chunk), s.ch[s.arg 0]? = some c ∧ c.typeId = 2#5 ∧ s.arg 1 = 512) ∧
    (∃ (s : State) (c : Chunk) (n : Nat), s.ch[s.arg 0]? = some c ∧ spriteOf c (s.arg 1) n ∧ s.arg 2 = 8) ∧
    (∃ (s : State) (c : Chunk) (n : Nat), s.ch[s.arg 0]? = some c ∧ spriteOf c (s.arg 1) n ∧ s.arg 2 = 7 ∧
      s.arg 3 = 8) ∧
    (∃ (s : State) (c : Chunk) (n : Nat), s.ch[s.arg 0]? = some c ∧ spriteOf c (s.arg 1) n ∧ s.arg 2 = 7 ∧
      s.arg 3 = 7 ∧ s.arg 4 = 16) ∧
    (∃ (s : State) (c : Chunk) (n : Nat), s.ch[s.arg 0]? = some c ∧ spriteOf c (s.arg 1) n ∧ n = 255 ∧
      c.typeId = 2#5 ∧ s.arg 2 = 7 ∧ s.arg 3 = 7 ∧ s.arg 4 = 15) ∧
    (∃ (s : State) (c : Chunk) (n : Nat), s.ch[s.arg 0]? = some c ∧ spriteOf c (s.arg 1) n ∧ n = 0 ∧
      c.typeId = 1#5 ∧ s.arg 2 = 0 ∧ s.arg 3 = 0 ∧ s.arg 4 = 0) := by
  unfold spriteOf
  exact ⟨⟨on [0, 256], tiles, by decide⟩, ⟨on [1, 255], sprites, by decide⟩, ⟨on [1, 512], sprites, by decide⟩,
    ⟨on [0, 255, 8], tiles, 255, by decide⟩, ⟨on [0, 255, 7, 8], tiles, 255, by decide⟩,
    ⟨on [1, 256, 7, 7, 16], sprites, 0, by decide⟩, ⟨on [1, 511, 7, 7, 15], sprites, 255, by decide⟩,
    ⟨on [0, 0, 0, 0, 0], tiles, 0, by decide⟩⟩

/-- PixelRoundTrip: the written pixel, and another pixel of the same byte. -/
theorem witness_pixel_round_trip :
    (∃ (s : State) (c : Chunk) (n : Nat), s.ch[s.arg 0]? = some c ∧ spriteOf c (s.arg 1) n ∧ s.arg 2 = 7 ∧
      s.arg 3 = 7 ∧ s.arg 4 = 15 ∧ ∃ (b : Vector Word 6) (v : State), b[0] = s.a[0] ∧
        (b[1], b[2], b[3]) ≠ (s.a[1], s.a[2], s.a[3]) ∧ exec .getPixel { s with a := b } = .next v) ∧
    pixelByte 3 6 7 = pixelByte 3 6 7 := by
  refine ⟨⟨on [0, 255, 7, 7, 15], tiles, 255, by decide, by unfold spriteOf; decide, by decide, by decide, by decide,
    words [0, 255, 6, 7], ?_⟩, rfl⟩
  obtain ⟨v, hv⟩ : ∃ v, exec .getPixel { on [0, 255, 7, 7, 15] with a := words [0, 255, 6, 7] } = .next v :=
    leaves_any (by decide)
  exact ⟨v, by decide, by decide, hv⟩

/-- SetColorWritesTheSuppliedChannels: every clause at a boundary value, the mask's bits one by one. -/
theorem witness_setColor :
    (∃ (s : State) (c : Chunk), s.ch[s.arg 0]? = some c ∧ c.typeId = 12#5 ∧ s.arg 1 = 16) ∧
    (∃ (s : State) (c : Chunk), s.ch[s.arg 0]? = some c ∧ c.typeId = 12#5 ∧ s.arg 1 = 15 ∧ s.arg 2 = 8) ∧
    (∃ (s : State) (c : Chunk), s.ch[s.arg 0]? = some c ∧ c.typeId = 12#5 ∧ s.arg 1 ≤ 15 ∧ s.arg 2 ≤ 7 ∧
      s.arg 2 % 2 = 1 ∧ s.arg 3 = 256) ∧
    (∃ (s : State) (c : Chunk), s.ch[s.arg 0]? = some c ∧ c.typeId = 12#5 ∧ s.arg 1 ≤ 15 ∧ s.arg 2 ≤ 7 ∧
      (s.arg 2 % 2 = 1 → s.arg 3 ≤ 255) ∧ s.arg 2 / 2 % 2 = 1 ∧ s.arg 4 = 256) ∧
    (∃ (s : State) (c : Chunk), s.ch[s.arg 0]? = some c ∧ c.typeId = 12#5 ∧ s.arg 1 ≤ 15 ∧ s.arg 2 ≤ 7 ∧
      (s.arg 2 % 2 = 1 → s.arg 3 ≤ 255) ∧ (s.arg 2 / 2 % 2 = 1 → s.arg 4 ≤ 255) ∧ s.arg 2 / 4 % 2 = 1 ∧
      s.arg 5 = 256) ∧
    (∃ (s : State) (c : Chunk), s.ch[s.arg 0]? = some c ∧ c.typeId = 12#5 ∧ s.arg 1 ≤ 15 ∧ s.arg 2 = 0 ∧
      s.arg 3 = 256 ∧ c.data.length = 47) ∧
    (∃ (s : State) (c : Chunk), s.ch[s.arg 0]? = some c ∧ c.typeId = 12#5 ∧ s.arg 1 = 15 ∧ s.arg 2 = 7 ∧
      s.arg 3 = 255 ∧ s.arg 4 = 255 ∧ s.arg 5 = 255 ∧ c.data.length = 48) :=
  ⟨⟨on [3, 16], palette, by decide⟩, ⟨on [3, 15, 8], palette, by decide⟩, ⟨on [3, 0, 1, 256], palette, by decide⟩,
    ⟨on [3, 0, 2, 256, 256], palette, by decide⟩, ⟨on [3, 0, 4, 256, 256, 256], palette, by decide⟩,
    ⟨on [6, 0, 0, 256], shortPalette, by decide⟩, ⟨on [3, 15, 7, 255, 255, 255], palette, by decide⟩⟩

/-- GetColorReadsThreeChannels, ColorRoundTrip, StrippingAndTheReadingCommands (the palette clause). -/
theorem witness_getColor :
    (∃ (s : State) (c : Chunk), s.ch[s.arg 0]? = some c ∧ c.typeId = 12#5 ∧ s.arg 1 = 16) ∧
    (∃ (s : State) (c : Chunk), s.ch[s.arg 0]? = some c ∧ c.typeId = 12#5 ∧ s.arg 1 = 15 ∧ c.data.length = 47) ∧
    (∃ (s : State) (c : Chunk), s.ch[s.arg 0]? = some c ∧ c.typeId = 12#5 ∧ s.arg 1 = 15 ∧ c.data.length = 48) ∧
    (∃ (s : State) (c : Chunk), s.ch[s.arg 0]? = some c ∧ c.typeId = 12#5 ∧ 48 ≤ c.data.length ∧ s.arg 1 ≤ 15 ∧
      s.arg 2 = 7 ∧ s.arg 3 = 255 ∧ s.arg 4 = 0 ∧ s.arg 5 = 255 ∧ ∃ (b : Vector Word 6) (v : State),
        b[0] = s.a[0] ∧ b[1] ≠ s.a[1] ∧ exec .getColor { s with a := b } = .next v) ∧
    (∃ (s : State) (c : Chunk), s.ch[s.arg 0]? = some c ∧ c.typeId = 12#5 ∧ s.arg 1 = 15 ∧
      c.data.length = 48 ∧ (stripTZ c.data).length = 47) := by
  refine ⟨⟨on [3, 16], palette, by decide⟩, ⟨on [6, 15], shortPalette, by decide⟩, ⟨on [3, 15], palette, by decide⟩,
    ⟨on [3, 15, 7, 255, 0, 255], palette, by decide, by decide, by decide, by decide, by decide, by decide, by decide,
      by decide, words [3, 14], ?_⟩,
    ⟨withStore [⟨12#5, 0#3, List.replicate 47 1#8 ++ [0#8]⟩] [0, 15], _, rfl, by decide⟩⟩
  obtain ⟨v, hv⟩ : ∃ v, exec .getColor { on [3, 15, 7, 255, 0, 255] with a := words [3, 14] } = .next v :=
    leaves_any (by decide)
  exact ⟨v, by decide, by decide, hv⟩

/-- SetTileWritesOneCell, GetTileReadsOneCell, TileRoundTrip. -/
theorem witness_tile :
    (∃ (s : State) (c : Chunk), s.ch[s.arg 0]? = some c ∧ c.typeId = 4#5 ∧ s.arg 1 = 240) ∧
    (∃ (s : State) (c : Chunk), s.ch[s.arg 0]? = some c ∧ c.typeId = 4#5 ∧ s.arg 1 = 239 ∧ s.arg 2 = 240) ∧
    (∃ (s : State) (c : Chunk), s.ch[s.arg 0]? = some c ∧ c.typeId = 4#5 ∧ s.arg 1 = 239 ∧ s.arg 2 = 239 ∧
      s.arg 3 = 256) ∧
    (∃ (s : State) (c : Chunk), s.ch[s.arg 0]? = some c ∧ c.typeId = 4#5 ∧ s.arg 1 = 239 ∧ s.arg 2 = 239 ∧
      s.arg 3 = 255 ∧ c.data.length ≤ mapByte (s.arg 1) (s.arg 2) ∧ ∃ (b : Vector Word 6) (v : State),
        b[0] = s.a[0] ∧ (b[1], b[2]) ≠ (s.a[1], s.a[2]) ∧ exec .getTile { s with a := b } = .next v) := by
  refine ⟨⟨on [2, 240], map, by decide⟩, ⟨on [2, 239, 240], map, by decide⟩, ⟨on [2, 239, 239, 256], map, by decide⟩,
    ⟨on [2, 239, 239, 255], map, by decide, by decide, by decide, by decide, by decide, by decide,
      words [2, 0, 239], ?_⟩⟩
  obtain ⟨v, hv⟩ : ∃ v, exec .getTile { on [2, 239, 239, 255] with a := words [2, 0, 239] } = .next v :=
    leaves_any (by decide)
  exact ⟨v, by decide, by decide, hv⟩

/-- SetFlagsWritesOneByte, GetFlagsReadsOneByte, FlagsRoundTrip. -/
theorem witness_flags :
    (∃ (s : State) (c : Chunk), s.ch[s.arg 0]? = some c ∧ c.typeId = 6#5 ∧ s.arg 1 = 512) ∧
    (∃ (s : State) (c : Chunk), s.ch[s.arg 0]? = some c ∧ c.typeId = 6#5 ∧ s.arg 1 = 511 ∧ s.arg 2 = 9) ∧
    (∃ (s : State) (c : Chunk), s.ch[s.arg 0]? = some c ∧ c.typeId = 6#5 ∧ s.arg 1 = 511 ∧ s.arg 2 = 8 ∧
      ∃ (b : Vector Word 6) (v : State), b[0] = s.a[0] ∧ b[1] ≠ s.a[1] ∧
        exec .getFlags { s with a := b } = .next v) := by
  refine ⟨⟨on [5, 512], flags, by decide⟩, ⟨on [5, 511, 9], flags, by decide⟩,
    ⟨on [5, 511, 8, 0xFFFFFFFF], flags, by decide, by decide, by decide, by decide, words [5, 0], ?_⟩⟩
  obtain ⟨v, hv⟩ : ∃ v, exec .getFlags { on [5, 511, 8, 0xFFFFFFFF] with a := words [5, 0] } = .next v :=
    leaves_any (by decide)
  exact ⟨v, by decide, by decide, hv⟩

/-- SourceSplitsAtTheFirstOtherLine, HeaderLineGivesKeyAndValue, HeaderListRoundTrip, SourceRoundTrip. -/
theorem witness_text :
    (∃ (ls : List Bytes) (body : Bytes), ls.length = 1 ∧ (∀ l ∈ ls, 0x0A#8 ∉ l ∧ [0x2D#8, 0x2D#8] <+: l) ∧
      ¬[0x2D#8, 0x2D#8] <+: body ∧ body ≠ []) ∧
    (∃ (ls : List Bytes) (l : Bytes), ls.length = 1 ∧ ∀ x ∈ ls ++ [l], 0x0A#8 ∉ x ∧ [0x2D#8, 0x2D#8] <+: x) ∧
    (∃ (pre : List Header) (k : Bytes), pre.length = 1 ∧ ∀ h ∈ pre, h.1 ≠ k) ∧
    (∃ before : Bytes, before.length = 3 ∧ 0x3A#8 ∉ before) ∧
    (∃ hs : List Header, hs.length = 2 ∧ (∀ h ∈ hs, h.1.length ≤ 65535 ∧ h.2.length ≤ 65535) ∧
      decodeHeaders (encodeHeaders hs).length (encodeHeaders hs) = some hs) ∧
    (∃ (hs : List Header) (body : Bytes), hs.length = 1 ∧ (∀ h ∈ hs, headerKeeps h) ∧ (hs.map (·.1)).Nodup ∧
      ¬[0x2D#8, 0x2D#8] <+: body) := by
  refine ⟨⟨[[0x2D#8, 0x2D#8, 0x61#8]], [0x2D#8], by decide⟩, ⟨[[0x2D#8, 0x2D#8, 0x61#8]], [0x2D#8, 0x2D#8], by decide⟩,
    ⟨[([0x61#8], [])], [0x62#8], by decide⟩,
    ⟨[0x2D#8, 0x2D#8, 0x61#8], by decide⟩, ⟨[([0x61#8], []), ([], [0x62#8])], by decide⟩,
    ⟨[([0x61#8], [0x3A#8])], [0x2D#8], rfl, ?_, by decide, by decide⟩⟩
  intro h hh
  rw [List.mem_singleton] at hh
  subst hh
  refine ⟨by decide, by decide, by decide, by decide, ?_⟩
  intro b hb
  simp only [List.head?_cons, List.getLast?_singleton, Option.some.injEq] at hb
  rcases hb with rfl | rfl | rfl | rfl <;> decide

/-- GetSourceReturnsHeadersAndBody, SetBodyReplacesTheBody (a payload one byte too long: 8 header bytes and 65528),
SetHeadersReplacesTheHeaders. -/
theorem witness_code :
    (∃ (s : State) (c : Chunk) (hs : List Header) (body : Bytes), s.ch[s.arg 0]? = some c ∧ c.typeId = 5#5 ∧
      c.data.length ≤ 65535 ∧ parseSource c.data = (hs, body) ∧ (formatSource hs s.din).length ≤ 65535) ∧
    (∃ (s : State) (c : Chunk) (old : List Header) (body : Bytes), s.ch[s.arg 0]? = some c ∧ c.typeId = 5#5 ∧
      parseSource c.data = (old, body) ∧ s.din = encodeHeaders [([0x61#8], [])] ∧
      (formatSource (headerMap [([0x61#8], [])]) body).length ≤ 65535) ∧
    (∃ (s : State) (c : Chunk) (hs : List Header) (old : Bytes), s.ch[s.arg 0]? = some c ∧ c.typeId = 5#5 ∧
      parseSource c.data = (hs, old) ∧ 65535 < (formatSource hs s.din).length) := by
  refine ⟨⟨on [4], code, _, _, by decide, by decide, by decide, rfl, by decide⟩,
    ⟨withDin store [4] [1#8, 0#8, 0x61#8, 0#8, 0#8], code, _, _, by decide, by decide, rfl, by decide, by decide⟩,
    ⟨{ on [4] with dinLen := 65528#32 }, code, [([0x61#8], [0x31#8])], [0x6F#8, 0x6C#8, 0x64#8], by decide, by decide,
      by decide, ?_⟩⟩
  have hd : ({ on [4] with dinLen := 65528#32 } : State).din.length = 65528 := by
    simp only [State.din, Mem.readRange, List.length_map, List.length_range]; decide
  rw [formatSource, List.length_append, hd]
  decide

/-- What `DIN` reads as in a state of `withDin`. -/
theorem din_withDin (cs : List Chunk) (a : List Nat) {d : Bytes} (h : d.length < 2 ^ 32) : (withDin cs a d).din = d := by
  have : (BitVec.ofNat 32 d.length).toNat = d.length := by rw [BitVec.toNat_ofNat, Nat.mod_eq_of_lt h]
  show Mem.readRange (Mem.ofBytes d) 0 (BitVec.ofNat 32 d.length).toNat = d
  rw [this, Mem.readRange_ofBytes]

/-- The text of one header is longer than its key. -/
theorem length_format_one (k body : Bytes) : k.length < (formatSource (headerMap [(k, [])]) body).length := by
  simp only [headerMap, List.foldl_cons, List.foldl_nil, putHeader, formatSource, formatHeader, List.flatMap_cons,
    List.length_append, List.length_cons]
  omega

/-- SetHeadersReplacesTheHeaders: a list that is no wire format, and one whose text is too long. -/
theorem witness_setHeaders :
    (∃ (s : State) (c : Chunk) (old : List Header) (body : Bytes), s.ch[s.arg 0]? = some c ∧ c.typeId = 5#5 ∧
      parseSource c.data = (old, body) ∧ ¬∃ hs : List Header, (∀ h ∈ hs, h.1.length ≤ 65535 ∧ h.2.length ≤ 65535) ∧ encodeHeaders hs = s.din) ∧
    (∃ (s : State) (c : Chunk) (old : List Header) (body : Bytes) (hs : List Header), s.ch[s.arg 0]? = some c ∧
      c.typeId = 5#5 ∧ parseSource c.data = (old, body) ∧ (∀ h ∈ hs, h.1.length ≤ 65535 ∧ h.2.length ≤ 65535) ∧
      encodeHeaders hs = s.din ∧ 65535 < (formatSource (headerMap hs) body).length) := by
  refine ⟨⟨withDin store [4] [5#8], code, _, _, by decide, by decide, rfl, ?_⟩, ?_⟩
  · rintro ⟨hs, -, h⟩
    have h1 := congrArg List.length h
    have h2 : (withDin store [4] [5#8]).din.length = 1 := by decide
    rw [h2] at h1
    cases hs with
    | nil => cases h1
    | cons g hs => simp [encodeHeaders, encodeLe16] at h1
  · obtain ⟨k, hk⟩ : ∃ k : Bytes, k.length = 65535 := ⟨List.replicate 65535 0x61#8, List.length_replicate⟩
    refine ⟨withDin store [4] (encodeHeaders [(k, [])]), code, _, _, [(k, [])], ?_, rfl, rfl, ?_, ?_,
      hk ▸ length_format_one k _⟩
    · show store[4]? = some code; rfl
    · intro h hh
      rw [List.mem_singleton] at hh
      rw [hh]
      exact ⟨hk.le, Nat.zero_le _⟩
    · refine (din_withDin _ _ ?_).symm
      simp only [encodeHeaders, encodeLe16, List.flatMap_cons, List.flatMap_nil, List.length_append, List.length_cons,
        List.length_nil, hk]
      decide

/-- LookupListsEveryRecordOfTheType, HasTypeTellsWhetherARecordHasIt. -/
theorem witness_lookup :
    (∃ s : State, s.arg 0 = 32) ∧ (∃ s : State, s.arg 0 = 31 ∧
      4 * s.ch.countP (fun c => c.typeId.toNat == s.arg 0) < 2 ^ 32) ∧
    (∃ s : State, s.arg 0 = 31 ∧ 4 * s.ch.countP (fun c => c.typeId.toNat == s.arg 0) = 2 ^ 32 - 4) ∧
    (∃ s : State, s.arg 0 ≤ 31 ∧ ∃ (k : Nat) (c : Chunk), s.ch[k]? = some c ∧ c.typeId.toNat = s.arg 0) ∧
    (∃ s : State, s.arg 0 = 31 ∧ ¬∃ (k : Nat) (c : Chunk), s.ch[k]? = some c ∧ c.typeId.toNat = s.arg 0) :=
  ⟨⟨on [32], by decide⟩, ⟨on [31], by decide⟩,
    ⟨withStore (List.replicate (2 ^ 30 - 1) ⟨31#5, 0#3, []⟩) [31], by decide, by
      rw [show (withStore (List.replicate (2 ^ 30 - 1) ⟨31#5, 0#3, []⟩) [31]).ch = List.replicate (2 ^ 30 - 1) _ from rfl,
        List.countP_replicate]; decide⟩,
    ⟨on [12], by decide, 6, shortPalette, by decide, by decide⟩,
    ⟨withStore [] [31], by decide, fun h => by obtain ⟨k, c, h, -⟩ := h; simp [withStore] at h⟩⟩

/-- CreateAppendsARecord and the CREATE clause of BeyondCapacityIsRefused. -/
theorem witness_create :
    (∃ s : State, registered (s.arg 0) = false) ∧
    (∃ s : State, registered (s.arg 0) = true ∧ s.arg 1 = 8) ∧
    (∃ s : State, registered (s.arg 0) = true ∧ s.arg 1 = 7 ∧ s.dinLen.toNat = 65536) ∧
    (∃ s : State, registered (s.arg 0) = true ∧ s.arg 1 = 7 ∧ s.dinLen.toNat = 65535 ∧
      s.ch.length + 1 = s.params.maxChunks.toNat) ∧
    (∃ s : State, registered (s.arg 0) = true ∧ s.arg 1 = 7 ∧ s.dinLen.toNat = 65535 ∧
      s.ch.length = s.params.maxChunks.toNat) :=
  ⟨⟨on [20], by decide⟩, ⟨on [19, 8], by decide⟩, ⟨{ on [19, 7] with dinLen := 65536#32 }, by decide⟩,
    ⟨{ on [19, 7] with dinLen := 65535#32, params := ⟨.three, 9#32⟩ }, by decide⟩,
    ⟨{ on [19, 7] with dinLen := 65535#32, params := ⟨.three, 8#32⟩ }, by decide⟩⟩

/-- RdChunkReadsARecord, WrDataReplacesAPayload. -/
theorem witness_record :
    (∃ s : State, s.ch.length = s.arg 0) ∧
    (∃ (s : State) (c : Chunk), s.ch[s.arg 0]? = some c ∧ c.data.length ≤ 65535 ∧ s.dinLen.toNat = 65535) ∧
    (∃ (s : State) (c : Chunk), s.ch[s.arg 0]? = some c ∧ s.dinLen.toNat = 65536) :=
  ⟨⟨on [8], by decide⟩, ⟨{ on [7] with dinLen := 65535#32 }, binary, by decide⟩,
    ⟨{ on [7] with dinLen := 65536#32 }, binary, by decide⟩⟩

/-- ImportWritesTheFirstPalette, ImportIsSixteenSetColors, and the IMPORT clause of BeyondCapacityIsRefused. -/
theorem witness_import :
    (∃ s : State, s.dinLen = 47#32) ∧
    (∃ (s : State) (j : Nat) (c : Chunk), s.ch.length < 2 ^ 32 ∧ s.dinLen = 48#32 ∧ s.ch[j]? = some c ∧
      c.typeId = 12#5 ∧ (∀ (k : Nat) (e : Chunk), k < j → s.ch[k]? = some e → e.typeId ≠ 12#5) ∧
      c.data.length = 48) ∧
    (∃ (s : State) (j : Nat) (c : Chunk), s.dinLen = 48#32 ∧ s.ch[j]? = some c ∧ c.typeId = 12#5 ∧
      (∀ (k : Nat) (e : Chunk), k < j → s.ch[k]? = some e → e.typeId ≠ 12#5) ∧ c.data.length = 47) ∧
    (∃ s : State, s.dinLen = 48#32 ∧ (∀ e ∈ s.ch, e.typeId ≠ 12#5) ∧ s.ch.length + 1 = s.params.maxChunks.toNat) ∧
    (∃ s : State, s.dinLen = 48#32 ∧ (∀ e ∈ s.ch, e.typeId ≠ 12#5) ∧ s.ch.length = s.params.maxChunks.toNat) := by
  refine ⟨⟨{ on [] with dinLen := 47#32 }, rfl⟩,
    ⟨withDin [tiles, palette] [] colors, 1, palette, by decide, by decide, by decide, by decide, ?_, by decide⟩,
    ⟨withDin [shortPalette, palette] [] colors, 0, shortPalette, by decide, by decide, by decide, ?_, by decide⟩,
    ⟨{ withDin [tiles] [] colors with params := ⟨.three, 2#32⟩ }, by decide⟩,
    ⟨{ withDin [tiles] [] colors with params := ⟨.three, 1#32⟩ }, by decide⟩⟩
  · intro k e hk he
    obtain rfl : k = 0 := by omega
    obtain rfl : tiles = e := by simpa [withDin, withStore] using he
    decide
  · intro k e hk; omega

/-- ImportedColorsReadBack: an IMPORT that succeeds on a store without a palette, and GETCOLOR's operands after it. -/
theorem witness_imported :
    ∃ s t : State, s.ch.length < 2 ^ 32 ∧ exec .importColors s = .next t ∧ t.err = 0#8 ∧
      ∃ b : Vector Word 6, b[0] = t.r[0] ∧ b[1].toNat = 15 := by
  obtain ⟨t, ht, hp⟩ := leaves_next (x := exec .importColors (withDin [tiles] [] colors))
    (p := fun t => t.err == 0#8) (by decide)
  exact ⟨_, t, by decide, ht, by simpa using hp, #v[t.r[0], 15#32, 0#32, 0#32, 0#32, 0#32], rfl, rfl⟩

/-- FailingCommandChangesOnlyTheErrorRegisters, CommandsWriteOnlyTheirResults, RecordsKeepTheirIdentity. -/
theorem witness_commands :
    (∃ (i : Instr) (s t : State), i.port = .command ∧ exec i s = .next t ∧ t.err ≠ 0#8 ∧ i ≠ .parse) ∧
    (∃ (i : Instr) (s t : State), i.port = .command ∧ exec i s = .next t ∧ t.err ≠ 0#8 ∧ i = .parse) ∧
    (∃ (i : Instr) (s t : State), i.port = .command ∧ i ≠ .parse ∧ exec i s = .next t ∧ t.err = 0#8) := by
  obtain ⟨t, ht, hp⟩ := leaves_next (x := exec .setPixel (on [0, 256])) (p := fun t => t.err == 1#8) (by decide)
  obtain ⟨u, hu, hq⟩ := leaves_next (x := exec .parse (withIn [0x0C#8])) (p := fun t => t.err == 3#8) (by decide)
  obtain ⟨v, hv, hr⟩ := leaves_next (x := exec .hasType (on [12])) (p := fun t => t.err == 0#8) (by decide)
  rw [beq_iff_eq] at hp hq hr
  exact ⟨⟨_, _, t, rfl, ht, by rw [hp]; decide, by decide⟩, ⟨_, _, u, rfl, hu, by rw [hq]; decide, rfl⟩,
    ⟨_, _, v, rfl, by decide, hv, hr⟩⟩

/-- StrippingAndTheReadingCommands: a payload with a trailing zero that GETTILE reads. -/
theorem witness_stripping :
    ∃ s t : State, exec .getTile s = .next t ∧ stripStore s.ch ≠ s.ch := by
  obtain ⟨t, ht⟩ := leaves_any (x := exec .getTile (withStore [⟨4#5, 0#3, [7#8, 0#8]⟩] [0, 1, 0])) (by decide)
  exact ⟨_, t, ht, by decide⟩

/-- StepKeepsTheInvariant: a state inside PARSE that has the invariant and a next state. -/
theorem witness_invariant : ∃ s t : State, s.Inv ∧ s.seq = .parsing ∧ step s = .next t := by
  obtain ⟨t, ht⟩ := leaves_any (x := step { withIn [0x05#8, 0x00#8, 0x00#8, 0x00#8] with seq := .parsing }) (by decide)
  refine ⟨_, t, ⟨by decide, by decide, by decide, by decide, by unfold Mem.below; decide, by unfold Mem.below; decide,
    by unfold Mem.below; decide, by unfold Mem.below; decide, by unfold storeFits; decide, by unfold storeFits; decide,
    by decide, by decide, by decide, by decide, by decide⟩, rfl, ht⟩

/-- RegisterWindow, BufferAccess: the first and the last readable register, each writable one, and the greatest
address of a space. -/
theorem witness_window :
    (∃ (s : State) (rest : List HostAccess), s.seq = .idle ∧ s.host = .readReg 0x04 :: rest) ∧
    (∃ (s : State) (rest : List HostAccess), s.seq = .idle ∧ s.host = .readReg 0x6C :: rest) ∧
    (∃ (s : State) (rest : List HostAccess), s.seq = .idle ∧ s.host = .readReg 0x00 :: rest) ∧
    (∀ off ∈ [0x00, 0x20, 0x24, 0x2C, 0x40, 0x54], ∃ (s : State) (v : Word) (rest : List HostAccess), s.seq = .idle ∧
      s.host = .writeReg off v :: rest) ∧
    (∃ (s : State) (rest : List HostAccess) (addr : Word) (b : Byte), s.seq = .idle ∧ addr ≠ 0xFFFFFFFF#32 ∧
      addr = 0xFFFFFFFE#32 ∧ s.host = .writeIn addr b :: rest) ∧
    (∃ (s : State) (rest : List HostAccess) (addr : Word) (b : Byte), s.seq = .idle ∧ addr ≠ 0xFFFFFFFF#32 ∧
      s.host = .writeDin addr b :: rest) ∧
    (∃ (s : State) (rest : List HostAccess) (addr : Word), s.seq = .idle ∧ s.host = .readOut addr :: rest ∧
      addr < s.outLen) ∧
    (∃ (s : State) (rest : List HostAccess) (addr : Word), s.seq = .idle ∧ s.host = .readDout addr :: rest ∧
      addr < s.doutLen) :=
  ⟨⟨{ State.reset with host := [.readReg 0x04] }, [], rfl, rfl⟩,
    ⟨{ State.reset with host := [.readReg 0x6C] }, [], rfl, rfl⟩,
    ⟨{ State.reset with host := [.readReg 0x00] }, [], rfl, rfl⟩,
    fun off _ => ⟨{ State.reset with host := [.writeReg off 0x1FF#32] }, 0x1FF#32, [], rfl, rfl⟩,
    ⟨{ State.reset with host := [.writeIn 0xFFFFFFFE#32 1#8] }, [], _, _, rfl, by decide, rfl, rfl⟩,
    ⟨{ State.reset with host := [.writeDin 0#32 0#8] }, [], 0#32, _, rfl, by decide, rfl⟩,
    ⟨{ State.reset with host := [.readOut 0#32], outLen := 1#32 }, [], 0#32, rfl, rfl, by decide⟩,
    ⟨{ State.reset with host := [.readDout 0#32], doutLen := 1#32 }, [], 0#32, rfl, rfl, by decide⟩⟩

/-- HostFillsABuffer, HostIssuesACommand (six operands, and none). -/
theorem witness_host :
    (∃ (s : State) (bs : Bytes) (rest : List HostAccess), s.seq = .idle ∧ bs.length < 2 ^ 32 ∧ bs ≠ [] ∧
      s.host = hostFillIn bs ++ rest) ∧
    (∃ (s : State) (bs : Bytes) (rest : List HostAccess), s.seq = .idle ∧ bs.length < 2 ^ 32 ∧ bs ≠ [] ∧
      s.host = hostFillDin bs ++ rest) ∧
    (∃ (s : State) (i : Instr) (op : Byte) (ops : List Word) (rest : List HostAccess), s.seq = .idle ∧
      ops.length = 6 ∧ decode .command [op] = .ok (i, []) ∧ s.host = hostCommand op ops ++ rest) ∧
    (∃ (s : State) (i : Instr) (op : Byte) (ops : List Word) (rest : List HostAccess), s.seq = .idle ∧
      ops = [] ∧ decode .command [op] = .ok (i, []) ∧ s.host = hostCommand op ops ++ rest) :=
  ⟨⟨{ State.reset with host := hostFillIn [7#8] ++ [.reset] }, [7#8], [.reset], rfl, by decide, by decide, rfl⟩,
    ⟨{ State.reset with host := hostFillDin [7#8] ++ [.reset] }, [7#8], [.reset], rfl, by decide, by decide, rfl⟩,
    ⟨{ State.reset with host := hostCommand 0x20#8 [0#32, 1#32, 2#32, 3#32, 4#32, 5#32] ++ [.reset] }, .setColor, 0x20#8,
      [0#32, 1#32, 2#32, 3#32, 4#32, 5#32], [.reset], rfl, rfl, rfl, rfl⟩,
    ⟨{ State.reset with host := hostCommand 0x01#8 [] ++ [.reset] }, .parse, 0x01#8, [], [.reset], rfl, rfl, rfl, rfl⟩⟩

/-- BeyondCapacityIsRefused: one frame more than `MAX_CHUNKS` (CREATE and IMPORT stand above; a stream of 2^32 bytes
is a store of more than 65 thousand full records). -/
theorem witness_capacity :
    (∃ (s : State) (fs : List Frame), s.inBytes = fs.flatMap encodeFrame ∧ (∀ f ∈ fs, f.payload.length ≤ 65535) ∧
      s.params.maxChunks.toNat < fs.length) ∧
    (∃ s : State, 2 ^ 32 ≤ (s.ch.map fun c => 4 + (stripTZ c.data).length).sum) ∧
    (∃ s : State, s.arg 0 = 31 ∧ 2 ^ 32 = 4 * s.ch.countP (fun c => c.typeId.toNat == s.arg 0)) := by
  refine ⟨⟨{ withIn [0x05#8, 0x00#8, 0x00#8, 0x00#8] with params := ⟨.three, 0#32⟩ }, [⟨5#5, 0#3, 0#8, []⟩], by decide,
    by decide, by decide⟩, ⟨withStore (List.replicate (2 ^ 30) ⟨5#5, 0#3, []⟩) [], ?_⟩,
    ⟨withStore (List.replicate (2 ^ 30) ⟨31#5, 0#3, []⟩) [31], by decide, ?_⟩⟩
  · simp only [withStore, List.map_replicate, List.sum_replicate, stripTZ, List.length_nil]
    decide
  · rw [show (withStore (List.replicate (2 ^ 30) ⟨31#5, 0#3, []⟩) [31]).ch = List.replicate (2 ^ 30) _ from rfl,
      List.countP_replicate]
    decide

end Sys2Proof.Tests
end

/-! PROOFS. The scope rules of 00_scope.md: stripping trailing zeros (R14), the registry (R15), and what a command that
ends in an error leaves behind (R12, R226, R229). -/

namespace Sys2Proof.Machine

/-! ## Trailing zeros (R14) -/

@[simp] theorem stripTZ_zeros (n : Nat) : stripTZ (zeros n) = [] := by
  induction n with
  | zero => rfl
  | succ n ih =>
    change stripTZ (0#8 :: zeros n) = []
    rw [stripTZ, ih]
    rfl

/-- Zeros at the end do not change what stripping leaves. -/
@[simp] theorem stripTZ_append_zeros_right (d : Bytes) (n : Nat) : stripTZ (d ++ zeros n) = stripTZ d := by
  induction d with
  | nil => exact stripTZ_zeros n
  | cons b d ih => rw [List.cons_append, stripTZ, ih, stripTZ]

theorem stripTZ_concat (d : Bytes) (b : Byte) : stripTZ (d ++ [b]) = if b = 0#8 then stripTZ d else d ++ [b] := by
  split
  next hb => subst hb; exact stripTZ_append_zeros_right d 1
  next hb => exact stripTZ_eq_self fun _ => by simpa using hb

theorem stripTZ_eq_take (d : Bytes) : stripTZ d = d.take (stripTZ d).length := by
  conv_rhs => rw [← stripTZ_append_zeros d]
  simp

/-- From the end of the stripped sequence on, every byte reads 0 (R14, R63). -/
theorem byteAt_of_length_stripTZ_le {d : Bytes} {a : Nat} (h : (stripTZ d).length ≤ a) : byteAt d a = 0#8 := by
  rw [← byteAt_stripTZ, byteAt_eq_zero h]

/-- The stripped length is the least position from which on every byte is zero: were it beyond `m`, the last byte kept
would be zero (R14). -/
theorem length_stripTZ_le_of_byteAt {d : Bytes} {m : Nat} (h : ∀ a, m ≤ a → byteAt d a = 0#8) :
    (stripTZ d).length ≤ m := by
  by_contra hlt
  have hne : stripTZ d ≠ [] := by rintro he; simp [he] at hlt
  have hlast : byteAt (stripTZ d) ((stripTZ d).length - 1) = (stripTZ d).getLast hne := by
    rw [byteAt_eq_getElem (by omega), List.getLast_eq_getElem]
  apply stripTZ_getLast_ne_zero d hne
  rw [← hlast, byteAt_stripTZ]
  exact h _ (by omega)

/-- Settles O17: the least position is the length of the stripped sequence. -/
theorem stripRemovesExactlyTheTrailingZeros : Obligations.StripRemovesExactlyTheTrailingZeros :=
  ⟨fun d => ⟨(stripTZ d).length, length_stripTZ_le d, stripTZ_eq_take d, fun _ => byteAt_of_length_stripTZ_le,
      fun _ => length_stripTZ_le_of_byteAt⟩,
    stripTZ_nil, stripTZ_concat, stripTZ_zeros⟩

/-! ## The registry (R15, R81) -/

theorem variant_eq (t : BitVec 5) : variant t =
    if t = 1#5 then .tiles else if t = 2#5 then .sprites else if t = 4#5 then .map else if t = 5#5 then .code
    else if t = 6#5 then .flags else if t = 12#5 then .palette else .generic := by
  revert t; decide

theorem registered_iff (n : Nat) : registered n = true ↔
    n = 1 ∨ n = 2 ∨ n = 3 ∨ n = 4 ∨ n = 5 ∨ n = 6 ∨ n = 9 ∨ n = 10 ∨ (12 ≤ n ∧ n ≤ 19) := by
  simp only [registered, List.mem_cons, List.not_mem_nil, or_false, decide_eq_true_eq]
  omega

theorem registryTable_typeIds : registryTable.map (·.typeId) = List.range 32 := rfl

theorem registryTable_row : ∀ row ∈ registryTable,
    row.variant = variant (BitVec.ofNat 5 row.typeId) ∧ row.inRegistry = registered row.typeId := by
  decide

/-- Settles O10, function by function, then the table's rows against both. -/
theorem registryGivesVariantAndRegistration : Obligations.RegistryGivesVariantAndRegistration :=
  ⟨variant_eq, registered_iff, registryTable_typeIds, registryTable_row⟩

/-! ## A command that ends in an error (R12, R226, R229) -/

/-- A step result that is no error: if it is a next state, the error code is 0. -/
def Completes (x : StepResult) : Prop := ∀ t, x = .next t → t.err = 0#8

theorem completes_next (s : State) : Completes (.next s.complete) := by
  rintro _ ⟨⟩
  exact s.complete_err

theorem completes_refused (r : Refusal) : Completes (.refused r) := nofun

theorem completes_appendRecord (s : State) (name : String) (c : Chunk) (more : State → State) :
    Completes (s.appendRecord name c more) := by
  obtain ⟨_, h⟩ | ⟨_, h⟩ := s.appendRecord_cases name c more <;> rw [h]
  · exact completes_next _
  · exact completes_refused _

/-- SERIALIZE raises no error (R125, R230). -/
theorem completes_execSerialize (s : State) : Completes (execSerialize s) := by
  unfold execSerialize
  split
  · exact completes_next _
  · exact completes_refused _

/-- A command whose every failure is one `raise` on the state it was given, and which fails in the same way on the
state that leaves. -/
def FailsByRaising (command : State → StepResult) : Prop :=
  ∀ s t, command s = .next t → t.err ≠ 0#8 → ∃ e, t = s.raise e ∧ command t = .next t

theorem FailsByRaising.of_completes {command : State → StepResult} (h : ∀ s, Completes (command s)) :
    FailsByRaising command :=
  fun s t hst hErr => absurd (h s t hst) hErr

/-- Checks that read no error register, before an effect that raises nothing: the failing check raises, and fails
again on what that leaves (R12, R229). -/
theorem FailsByRaising.of_attempt {α : Type} {checks : State → Except CmdError α}
    {effect : State → α → StepResult} (hChecks : ∀ s e, checks (s.raise e) = checks s)
    (hEffect : ∀ s x, Completes (effect s x)) :
    FailsByRaising fun s => attempt s (checks s) (effect s) := by
  intro s t hst hErr
  obtain ⟨e, he, hRaise⟩ | ⟨x, _, hx⟩ := attempt_cases s (checks s) (effect s)
  · obtain rfl : s.raise e = t := by simpa [hRaise] using hst
    refine ⟨e, rfl, ?_⟩
    simp only [hChecks, he, attempt_error]
    rfl
  · exact absurd (hEffect s x t (hx ▸ hst)) hErr

/-- Every command but PARSE fails by raising; no check of any command reads an error register. -/
theorem exec_failsByRaising {i : Instr} (hPort : i.port = .command) (hParse : i ≠ .parse) :
    FailsByRaising (exec i) := by
  cases i with
  | parse => exact absurd rfl hParse
  | serialize => exact .of_completes completes_execSerialize
  | setPixel | getPixel | setColor | getColor | setTile | getTile | setFlags | getFlags | getSource | setBody
  | setHeaders | hasType | rdChunk | wrData => exact .of_attempt (fun _ _ => rfl) fun _ _ => completes_next _
  | create => exact .of_attempt (fun _ _ => rfl) fun s c => completes_appendRecord s "CREATE" c id
  | lookup =>
    refine .of_attempt (fun _ _ => rfl) fun s k => ?_
    split
    · exact completes_next _
    · exact completes_refused _
  | importColors =>
    refine .of_attempt (fun _ _ => rfl) fun s target => ?_
    cases target with
    | some _ => exact completes_next _
    | none => exact completes_appendRecord s "IMPORT" _ _
  | _ => cases hPort

theorem execParse_truncated {s : State} {p : Nat} (h : parseStream s.inBytes = .truncated p) :
    execParse s = .next ({ s with pos := BitVec.ofNat 32 p }.raise .truncatedInput) := by
  simp only [execParse, h]

/-- PARSE fails only by a truncation: it moves `POS` and raises `TruncatedInput`, and as the stream stays in `IN` it
does the same again (R113). -/
theorem execParse_failure {s t : State} (h : execParse s = .next t) (hErr : t.err ≠ 0#8) :
    (∃ p, t = { s with pos := p }.raise .truncatedInput) ∧ execParse t = .next t := by
  obtain ⟨p, hp, he⟩ | ⟨_, _, _, _, he⟩ | ⟨_, _, _, _, he⟩ := execParse_cases s
  · obtain rfl : { s with pos := BitVec.ofNat 32 p }.raise .truncatedInput = t := by simpa [he] using h
    exact ⟨⟨_, rfl⟩, execParse_truncated hp⟩
  · exact absurd (completes_next _ t (he ▸ h)) hErr
  · exact absurd (completes_refused _ t (he ▸ h)) hErr

/-- Settles O49: PARSE by its truncation, every other command by what it raises. -/
theorem failingCommandChangesOnlyTheErrorRegisters : Obligations.FailingCommandChangesOnlyTheErrorRegisters := by
  intro i s t hPort hExec hErr
  by_cases hParse : i = .parse
  · subst hParse
    obtain ⟨⟨p, rfl⟩, hAgain⟩ := execParse_failure hExec hErr
    exact ⟨rfl, fun h => absurd rfl h, hAgain⟩
  · obtain ⟨e, rfl, hAgain⟩ := exec_failsByRaising hPort hParse s t hExec hErr
    exact ⟨rfl, fun _ => s.raise_pos e, hAgain⟩

end Sys2Proof.Machine

/-! PROOFS. The machine's state of 10_state.md: the step and PARSE's loop (R30, R36, R110 to R113), the host's accesses
(R29, R60, R95), what a command may write (R20, R87) and the invariant (R22, R23, R34, R50). -/

namespace Sys2Proof.Machine

/-! ## The step (R30, R66, R111) -/

theorem step_idle {s : State} {x : HostAccess} {rest : List HostAccess} (hSeq : s.seq = .idle)
    (hHost : s.host = x :: rest) : step s = { s with host := rest }.access x := by
  simp only [step, hSeq, State.hostStep, hHost]

theorem step_issued {s : State} {i : Instr} (hSeq : s.seq = .issued) (hFetch : s.fetchCommand = .ok i) :
    step s = exec i s.accept := by
  simp only [step, hSeq, hFetch]

theorem step_reserved {s : State} {e : Reject} (hSeq : s.seq = .issued) (hFetch : s.fetchCommand = .error e) :
    step s = .next s.accept.raiseOpcode := by
  simp only [step, hSeq, hFetch]

theorem step_commit {s : State} (hSeq : s.seq = .parsing) (hEnd : s.pos = s.inLen) : step s = s.commitParse := by
  have hEoi : s.eoi = true := by simpa [State.eoi] using hEnd
  simp only [step, hSeq, hEoi, if_true]

theorem eoi_eq_false {s : State} (hEnd : s.pos ≠ s.inLen) : s.eoi = false := by
  simpa [State.eoi] using hEnd

theorem step_frame {s : State} {i : Instr} (hSeq : s.seq = .parsing) (hEnd : s.pos ≠ s.inLen)
    (hFetch : s.fetchFrame = .ok i) : step s = exec i s := by
  simp only [step, hSeq, eoi_eq_false hEnd, Bool.false_eq_true, if_false, hFetch]

theorem step_cut {s : State} {e : Reject} (hSeq : s.seq = .parsing) (hEnd : s.pos ≠ s.inLen)
    (hFetch : s.fetchFrame = .error e) : step s = .next s.truncateParse := by
  simp only [step, hSeq, eoi_eq_false hEnd, Bool.false_eq_true, if_false, hFetch]

theorem fetchCommand_of_decode {s : State} {i : Instr} {rest : Bytes} (h : decode .command [s.cmd] = .ok (i, rest)) :
    s.fetchCommand = .ok i := by
  simp only [State.fetchCommand, h]

theorem fetchFrame_of_decode {s : State} {i : Instr} {rest : Bytes} (h : decode .frame s.streamBytes = .ok (i, rest)) :
    s.fetchFrame = .ok i := by
  simp only [State.fetchFrame, h]

theorem fetchFrame_of_takeFrame {s : State} {f : Frame} {rest : Bytes} (h : takeFrame s.streamBytes = .ok (f, rest)) :
    s.fetchFrame = .ok f.toInstr :=
  fetchFrame_of_decode (rest := rest) (by simp only [decode, decodeFrame, h])

theorem fetchFrame_error {s : State} {e : Reject} (h : takeFrame s.streamBytes = .error e) :
    s.fetchFrame = .error e := by
  simp only [State.fetchFrame, decode, decodeFrame, h]

/-- No frame can be taken from nothing, nor from a cut frame (R85, R113). -/
theorem takeFrame_error_of_cutFrame {bs : Bytes} (h : bs = [] ∨ cutFrame bs) : ∃ e, takeFrame bs = .error e := by
  cases hTake : takeFrame bs with
  | error e => exact ⟨e, rfl⟩
  | ok p =>
    obtain ⟨f, rest⟩ := p
    obtain ⟨hb, b1, b2, rfl, hLen, -⟩ := takeFrame_ok.1 hTake
    obtain h | ⟨-, h⟩ | ⟨_, _, _, _, body, hEq, hShort⟩ := h
    · cases h
    · simp only [List.length_cons] at h
      omega
    · cases hEq
      simp [hLen, le16] at hShort

/-- The 32 frame instructions have one meaning: a pass of PARSE's loop with the frame they are (R110, R111). -/
theorem exec_of_form_frame {i : Instr} {f : Frame} (h : i.form = .frame f) (s : State) :
    exec i s = .next (s.passFrame f) := by
  cases i <;> cases h <;> rfl

/-- Inside PARSE a step commits at the end of input, passes the frame at `POS`, or ends in a cut frame. -/
theorem step_parsing_cases {s : State} (hSeq : s.seq = .parsing) :
    (s.pos = s.inLen ∧ step s = s.commitParse) ∨
    (∃ f rest, s.pos ≠ s.inLen ∧ takeFrame s.streamBytes = .ok (f, rest) ∧ step s = .next (s.passFrame f)) ∨
    (∃ e, s.pos ≠ s.inLen ∧ takeFrame s.streamBytes = .error e ∧ step s = .next s.truncateParse) := by
  by_cases hEnd : s.pos = s.inLen
  · exact .inl ⟨hEnd, step_commit hSeq hEnd⟩
  · refine .inr ?_
    cases hTake : takeFrame s.streamBytes with
    | ok p =>
      obtain ⟨f, rest⟩ := p
      refine .inl ⟨f, rest, hEnd, rfl, ?_⟩
      rw [step_frame hSeq hEnd (fetchFrame_of_takeFrame hTake), exec_of_form_frame f.form_toInstr s]
    | error e => exact .inr ⟨e, hEnd, rfl, step_cut hSeq hEnd (fetchFrame_error hTake)⟩

/-- Settles O6, phase by phase of the sequencer. -/
theorem stepRunsTheDecodedInstruction : Obligations.StepRunsTheDecodedInstruction := by
  refine ⟨?_, ?_, ?_, ?_⟩
  · intro s i rest hSeq hDecode
    exact step_issued hSeq (fetchCommand_of_decode hDecode)
  · intro s i rest hSeq hEnd hDecode
    exact step_frame hSeq hEnd (fetchFrame_of_decode hDecode)
  · intro s hSeq hEnd hCut
    obtain ⟨e, hTake⟩ := takeFrame_error_of_cutFrame hCut
    exact step_cut hSeq hEnd (fetchFrame_error hTake)
  · intro s hSeq hEnd hCap
    rw [step_commit hSeq hEnd, State.commitParse, if_pos hCap]
    rfl

/-- Settles O7: the reset state's fields, read off its definition. -/
theorem resetValues : Obligations.ResetValues := by
  unfold Obligations.ResetValues
  decide

/-! ## PARSE as the run of its frame passes (R36, R110 to R113) -/

theorem Mem.readRange_drop (m : Mem) (a n k : Nat) :
    (Mem.readRange m a n).drop k = Mem.readRange m (a + k) (n - k) := by
  obtain h | h := Nat.le_total k n
  · obtain ⟨d, rfl⟩ := Nat.exists_eq_add_of_le h
    rw [Mem.readRange_split, List.drop_left' (by simp), Nat.add_sub_cancel_left]
  · rw [Nat.sub_eq_zero_of_le h, List.drop_eq_nil_of_le (by simpa using h)]
    rfl

theorem takeFrame_rest {bs rest : Bytes} {f : Frame} (h : takeFrame bs = .ok (f, rest)) :
    rest = bs.drop (4 + f.payload.length) := by
  obtain ⟨hb, b1, b2, rfl, -⟩ := takeFrame_ok.1 h
  simp [Nat.add_comm 4]

@[simp] theorem State.length_streamBytes (s : State) : s.streamBytes.length = s.inLen.toNat - s.pos.toNat := by
  simp [State.streamBytes]

theorem State.pos_eq_inLen {s : State} (hPos : s.pos.toNat ≤ s.inLen.toNat) (h : s.streamBytes = []) :
    s.pos = s.inLen := by
  have hLen := congrArg List.length h
  rw [State.length_streamBytes, List.length_nil] at hLen
  exact BitVec.eq_of_toNat_eq (by omega)

/-- A pass moves the cursor over the whole frame and stays within the stream: the addition does not wrap (log 14). -/
theorem State.toNat_pos_passFrame {s : State} {f : Frame} {rest : Bytes} (h : takeFrame s.streamBytes = .ok (f, rest)) :
    (s.passFrame f).pos.toNat = s.pos.toNat + (4 + f.payload.length) ∧
      s.pos.toNat + (4 + f.payload.length) + rest.length = s.inLen.toNat := by
  have hLen := takeFrame_length h
  rw [s.length_streamBytes] at hLen
  have hIn := s.inLen.isLt
  rw [State.passFrame_pos, BitVec.toNat_add, BitVec.toNat_ofNat, Nat.add_mod_mod, Nat.mod_eq_of_lt (by omega)]
  omega

/-- After a pass the stream is what stood behind the frame (R111). -/
theorem State.streamBytes_passFrame {s : State} {f : Frame} {rest : Bytes}
    (h : takeFrame s.streamBytes = .ok (f, rest)) : (s.passFrame f).streamBytes = rest := by
  rw [takeFrame_rest h, State.streamBytes, State.streamBytes, (s.toNat_pos_passFrame h).1, Mem.readRange_drop,
    Nat.sub_sub]
  rfl

/-- One pass of the loop of R110. -/
theorem parseFrames_pass {bs rest : Bytes} {f : Frame} (h : takeFrame bs = .ok (f, rest)) (fuel p : Nat)
    (staged : List Chunk) : parseFrames (fuel + 1) bs p staged =
      parseFrames fuel rest (p + (4 + f.payload.length)) (staged ++ [frameRecord f]) := by
  cases bs with
  | nil => cases h
  | cons b bs => rw [parseFrames_cons, h]

/-- The loop of R110 stops where no frame can be taken from the bytes left. -/
theorem parseFrames_stop {bs : Bytes} {e : Reject} (hne : bs ≠ []) (h : takeFrame bs = .error e) (fuel p : Nat)
    (staged : List Chunk) : parseFrames fuel bs p staged = .truncated p := by
  cases bs with
  | nil => exact absurd rfl hne
  | cons b bs =>
    cases fuel with
    | zero => rfl
    | succ fuel => rw [parseFrames_cons, h]

/-- What PARSE answers for each end of its loop, from a state inside it (R112, R113). -/
def State.endParse (s : State) : ParseEnd → StepResult
  | .truncated p => .next { s with pos := BitVec.ofNat 32 p }.truncateParse
  | .complete staged p => { s with pos := BitVec.ofNat 32 p, staging := staged }.commitParse

@[simp] theorem State.endParse_passFrame (s : State) (f : Frame) (e : ParseEnd) :
    (s.passFrame f).endParse e = s.endParse e := by
  cases e <;> rfl

@[simp] theorem State.endParse_truncated_here (s : State) :
    s.endParse (.truncated s.pos.toNat) = .next s.truncateParse := by
  rw [State.endParse, BitVec.ofNat_toNat, BitVec.setWidth_eq]

@[simp] theorem State.endParse_complete_here (s : State) :
    s.endParse (.complete s.staging s.pos.toNat) = s.commitParse := by
  rw [State.endParse, BitVec.ofNat_toNat, BitVec.setWidth_eq]

/-- PARSE, the one command, is the loop of R110 and then its end. -/
theorem execParse_eq_endParse {s : State} (hSeq : s.seq = .idle) (hStaging : s.staging = []) :
    execParse s = { s with pos := 0#32, seq := .parsing }.endParse (parseStream s.inBytes) := by
  obtain ⟨⟩ := s
  simp only at hSeq hStaging
  subst hSeq hStaging
  unfold execParse
  cases parseStream _ <;> rfl

theorem run_succ {s t : State} (h : step s = .next t) (k : Nat) :
    Host.Core.run core (k + 1) s = Host.Core.run core k t := by
  have hCore : core.step s = .next t := h
  simp only [Host.Core.run, hCore]

theorem run_one (s : State) : Host.Core.run core 1 s = step s := by
  have hCore : core.step s = step s := rfl
  simp only [Host.Core.run, hCore]
  cases step s <;> rfl

/-- The steps of the machine inside PARSE follow the loop: from a cursor within the stream they reach the end that
`parseFrames` gives, in one step a frame and one last step. -/
theorem run_parsing (fuel : Nat) {s : State} (hSeq : s.seq = .parsing) (hPos : s.pos.toNat ≤ s.inLen.toNat)
    (hFuel : s.streamBytes.length ≤ fuel) :
    ∃ k, k ≤ s.streamBytes.length / 4 + 1 ∧
      Host.Core.run core k s = s.endParse (parseFrames fuel s.streamBytes s.pos.toNat s.staging) := by
  induction fuel using Nat.strongRecOn generalizing s with | ind fuel ih =>
  obtain ⟨hEnd, hStep⟩ | ⟨f, rest, hEnd, hTake, hStep⟩ | ⟨e, hEnd, hTake, hStep⟩ := step_parsing_cases hSeq
  · have hNil : s.streamBytes = [] := List.eq_nil_of_length_eq_zero (by simp [hEnd])
    refine ⟨1, by omega, ?_⟩
    rw [run_one, hStep, hNil, parseFrames_nil, State.endParse_complete_here]
  · have hLen := takeFrame_length hTake
    obtain ⟨fuel, rfl⟩ : ∃ n, fuel = n + 1 := Nat.exists_eq_add_one.2 (by omega)
    obtain ⟨hNext, hLeft⟩ := s.toNat_pos_passFrame hTake
    have hRest := State.streamBytes_passFrame hTake
    obtain ⟨k, hk, hRun⟩ := ih fuel (Nat.lt_succ_self _) (s := s.passFrame f) hSeq
      (by rw [hNext, State.passFrame_inLen]; omega) (by rw [hRest]; omega)
    refine ⟨k + 1, by rw [hRest] at hk; omega, ?_⟩
    rw [run_succ hStep, hRun, hRest, hNext, parseFrames_pass hTake, State.endParse_passFrame]
    rfl
  · refine ⟨1, by omega, ?_⟩
    rw [run_one, hStep, parseFrames_stop (mt (State.pos_eq_inLen hPos) hEnd) hTake, State.endParse_truncated_here]

/-- Settles O16: the run of the loop from `POS` 0 reaches the end that the one command has. -/
theorem parseIsTheRunOfItsFrames : Obligations.ParseIsTheRunOfItsFrames := by
  intro s hSeq hStaging
  obtain ⟨k, hk, hRun⟩ := run_parsing s.inBytes.length (s := { s with pos := 0#32, seq := .parsing }) rfl
    (Nat.zero_le _) (Nat.le_refl _)
  refine ⟨k, by simpa using hk, hRun.trans ?_⟩
  rw [hStaging]
  exact (execParse_eq_endParse hSeq hStaging).symm

/-! ## The length of what GETSOURCE answers (R186, R93)

A header line of `n` bytes takes at most `n + 4` bytes of the header list, so a payload of `n` bytes gives at most
`4 * (n + 1)` bytes. -/

/-- The bytes of lines, each with one more for its end. -/
def linesLength (ls : List Bytes) : Nat := (ls.map fun l => l.length + 1).sum

@[simp] theorem linesLength_nil : linesLength [] = 0 := rfl

@[simp] theorem linesLength_cons (l : Bytes) (ls : List Bytes) :
    linesLength (l :: ls) = l.length + 1 + linesLength ls := by
  simp [linesLength]

theorem linesLength_textLines (d : Bytes) : linesLength (textLines d) = d.length + 1 := by
  induction d with
  | nil => rfl
  | cons b d ih =>
    rw [textLines]
    split
    · simp [ih, Nat.add_comm]
    · split
      next h => exact absurd h (textLines_ne_nil d)
      next l ls h =>
        rw [h, linesLength_cons] at ih
        simp only [linesLength_cons, List.length_cons]
        omega

theorem length_joinLines_le (ls : List Bytes) : (joinLines ls).length ≤ linesLength ls := by
  induction ls with
  | nil => exact Nat.le_refl _
  | cons l ls ih =>
    cases ls with
    | nil => simp [joinLines]
    | cons m ls =>
      rw [joinLines_cons (by simp), linesLength_cons]
      simp only [List.length_append, List.length_singleton]
      omega

theorem linesLength_takeWhile_add_dropWhile (p : Bytes → Bool) (ls : List Bytes) :
    linesLength (ls.takeWhile p) + linesLength (ls.dropWhile p) = linesLength ls := by
  conv_rhs => rw [← List.takeWhile_append_dropWhile (p := p) (l := ls)]
  simp only [linesLength, List.map_append, List.sum_append]

@[simp] theorem length_encodeHeaders_cons (h : Header) (hs : List Header) :
    (encodeHeaders (h :: hs)).length = h.1.length + h.2.length + 4 + (encodeHeaders hs).length := by
  simp only [encodeHeaders, List.flatMap_cons, List.length_append, length_encodeLe16]
  omega

theorem length_encodeHeaders_putHeader_le (hs : List Header) (h : Header) :
    (encodeHeaders (putHeader hs h)).length ≤ (encodeHeaders hs).length + (h.1.length + h.2.length + 4) := by
  induction hs with
  | nil => simp [putHeader, encodeHeaders]; omega
  | cons g hs ih =>
    rw [putHeader]
    split <;> simp only [length_encodeHeaders_cons] <;> omega

theorem length_encodeHeaders_foldl_le (hs acc : List Header) :
    (encodeHeaders (hs.foldl putHeader acc)).length ≤ (encodeHeaders acc).length + (encodeHeaders hs).length := by
  induction hs generalizing acc with
  | nil => exact Nat.le_add_right _ _
  | cons h hs ih =>
    have hPut := length_encodeHeaders_putHeader_le acc h
    have hRest := ih (putHeader acc h)
    rw [List.foldl_cons, length_encodeHeaders_cons]
    omega

/-- Folding into a mapping only shortens a header list (R185). -/
theorem length_encodeHeaders_headerMap_le (hs : List Header) :
    (encodeHeaders (headerMap hs)).length ≤ (encodeHeaders hs).length :=
  (length_encodeHeaders_foldl_le hs []).trans_eq (Nat.zero_add _)

theorem length_dropWhile_le (p : Byte → Bool) (d : Bytes) : (d.dropWhile p).length ≤ d.length :=
  (List.dropWhile_sublist p).length_le

theorem length_trim_le (d : Bytes) : (trim d).length ≤ d.length := by
  rw [trim, List.length_reverse]
  exact (length_dropWhile_le _ _).trans (by simpa using length_dropWhile_le isSpace d)

theorem length_parseHeaderLine_le (l : Bytes) :
    (parseHeaderLine l).1.length + (parseHeaderLine l).2.length ≤ l.length := by
  have hSplit := congrArg List.length (List.takeWhile_append_dropWhile (p := (· != colon)) (l := l))
  have hKey := length_trim_le (stripHyphens (l.takeWhile (· != colon)))
  have hHyphens := length_dropWhile_le (· == hyphen) (l.takeWhile (· != colon))
  have hValue := length_trim_le ((l.dropWhile (· != colon)).drop 1)
  rw [List.length_append] at hSplit
  rw [List.length_drop] at hValue
  simp only [parseHeaderLine, stripHyphens] at *
  omega

theorem length_encodeHeaders_map_parseHeaderLine_le (ls : List Bytes) :
    (encodeHeaders (ls.map parseHeaderLine)).length ≤ 4 * linesLength ls := by
  induction ls with
  | nil => exact Nat.le_refl _
  | cons l ls ih =>
    have hLine := length_parseHeaderLine_le l
    rw [List.map_cons, length_encodeHeaders_cons, linesLength_cons]
    omega

/-- The whole answer of GETSOURCE for a payload (R186). -/
theorem length_parseSource_le (d : Bytes) :
    (encodeHeaders (parseSource d).1 ++ (parseSource d).2).length ≤ 4 * (d.length + 1) := by
  have hHeaders := length_encodeHeaders_headerMap_le (((textLines d).takeWhile isHeaderLine).map parseHeaderLine)
  have hLines := length_encodeHeaders_map_parseHeaderLine_le ((textLines d).takeWhile isHeaderLine)
  have hBody := length_joinLines_le ((textLines d).dropWhile isHeaderLine)
  have hSplit := linesLength_takeWhile_add_dropWhile isHeaderLine (textLines d)
  rw [linesLength_textLines] at hSplit
  simp only [parseSource, List.length_append]
  omega

/-! ## What a command other than PARSE can do (R12, R20, R87) -/

/-- The commands that write the payload of the record `A[0]` selects and nothing else (R87). -/
def payloadCommands : List Instr :=
  [.setPixel, .setColor, .setTile, .setFlags, .setBody, .setHeaders, .wrData]

/-- The commands whose whole result is one word in `R[0]` (R87). -/
def oneWordCommands : List Instr := [.getPixel, .getTile, .getFlags, .hasType]

/-- The results of a command on `s`, PARSE left out: an error raised, or the writes the table of R87 names for it. The
lengths are those the invariant needs: payloads within 16 bits (R23), results within their length registers (R132). -/
inductive CommandEffect (s : State) : Instr → State → Prop where
  | raises (i : Instr) (e : CmdError) : CommandEffect s i (s.raise e)
  | writesPayload {i : Instr} (hi : i ∈ payloadCommands) {d : Bytes} (hd : storeFits s.ch → d.length ≤ 65535) :
      CommandEffect s i (s.setData (s.arg 0) d).complete
  | answersWord {i : Instr} (hi : i ∈ oneWordCommands) (v : Word) : CommandEffect s i (s.setR 0 v).complete
  | readsColor (v w x : Word) : CommandEffect s .getColor (((s.setR 0 v).setR 1 w).setR 2 x).complete
  | readsRecord {i : Instr} (hi : i = .getSource ∨ i = .rdChunk) {d : Bytes}
      (hd : storeFits s.ch → d.length < 2 ^ 32) (v w x : Word) :
      CommandEffect s i ((((s.setDout d).setR 0 v).setR 1 w).setR 2 x).complete
  | listsRecords {d : Bytes} (hd : d.length < 2 ^ 32) (v : Word) :
      CommandEffect s .lookup ((s.setDout d).setR 0 v).complete
  | serializes {o : Bytes} (ho : o.length < 2 ^ 32) (v : Word) :
      CommandEffect s .serialize ((s.setOut o).setR 0 v).complete
  | creates {c : Chunk} (hc : c.data.length ≤ 65535) (hCap : s.ch.length < s.params.maxChunks.toNat) (v : Word) :
      CommandEffect s .create ({ s with ch := s.ch ++ [c] }.setR 0 v).complete
  | importsNew {c : Chunk} (hc : c.data.length ≤ 65535) (hCap : s.ch.length < s.params.maxChunks.toNat) (v w : Word) :
      CommandEffect s .importColors (({ s with ch := s.ch ++ [c] }.setR 0 v).setR 1 w).complete
  | importsInto (j : Nat) {d : Bytes} (hd : storeFits s.ch → d.length ≤ 65535) (v w : Word) :
      CommandEffect s .importColors (((s.setData j d).setR 0 v).setR 1 w).complete

/-- A command in the shape of R12 raises what its checks give, or has the effect of what they yield. -/
theorem CommandEffect.of_attempt {α : Type} {s t : State} {i : Instr} {checks : Except CmdError α}
    {effect : α → StepResult} (h : attempt s checks effect = .next t)
    (hEffect : ∀ x, checks = .ok x → effect x = .next t → CommandEffect s i t) : CommandEffect s i t := by
  obtain ⟨e, -, hRaise⟩ | ⟨x, hx, hRun⟩ := attempt_cases s checks effect
  · obtain rfl : s.raise e = t := by simpa [hRaise] using h
    exact .raises i e
  · exact hEffect x hx (hRun ▸ h)

theorem storeFits.getElem? {cs : List Chunk} (h : storeFits cs) {k : Nat} {c : Chunk} (hc : cs[k]? = some c) :
    c.data.length ≤ 65535 :=
  h c (List.mem_of_getElem? hc)

theorem State.selects.length_le {s : State} {cls : CodecClass} {c : Chunk} (hc : s.selects cls c)
    (h : storeFits s.ch) : c.data.length ≤ 65535 :=
  h.getElem? hc.1

@[simp] theorem State.length_din (s : State) : s.din.length = s.dinLen.toNat := by
  simp [State.din]

@[simp] theorem length_putChannel (d : Bytes) (supplied : Bool) (a v : Nat) :
    (putChannel d supplied a v).length = d.length := by
  unfold putChannel
  split <;> simp

/-- A pixel's byte lies in the first 8192 bytes of its payload (R135, R136). -/
theorem State.pixelAddr_lt {s : State} {t : PixelTarget} (h : s.pixelAddr = .ok t) : t.addr < 8192 := by
  obtain ⟨-, ⟨n, hn, hAddr⟩, hx, hy, -⟩ := State.pixelAddr_ok.1 h
  rw [spriteNumber_ok] at hn
  rw [hAddr, pixelByte, Config.spriteBytes, Config.rowBytes]
  omega

theorem State.selects_of_pixelAddr {s : State} {t : PixelTarget} (h : s.pixelAddr = .ok t) :
    s.selects .pixels t.chunk :=
  (State.pixelAddr_ok.1 h).1

theorem CommandEffect.of_appendRecord {s t : State} {i : Instr} {name : String} {c : Chunk} {more : State → State}
    (h : s.appendRecord name c more = .next t)
    (hEffect : s.ch.length < s.params.maxChunks.toNat →
      CommandEffect s i (more ({ s with ch := s.ch ++ [c] }.setR 0 (BitVec.ofNat 32 s.ch.length))).complete) :
    CommandEffect s i t := by
  obtain ⟨hCap, hNext⟩ | ⟨-, hRefused⟩ := s.appendRecord_cases name c more
  · cases hNext.symm.trans h
    exact hEffect hCap
  · cases hRefused.symm.trans h

/-- A payload command writes a payload that fits: grown no further than its last addressable byte, of the length it
had, or checked (R23, R64). -/
theorem exec_writesPayload {i : Instr} {s t : State} (hi : i ∈ payloadCommands) (h : exec i s = .next t) :
    CommandEffect s i t := by
  cases i with
  | setPixel =>
    refine .of_attempt h fun p hp => ?_
    rintro ⟨⟩
    obtain ⟨hAddr, -⟩ := State.setPixelOperands_ok.1 hp
    refine .writesPayload hi fun hFits => ?_
    have hLen := (State.selects_of_pixelAddr hAddr).length_le hFits
    have hLt := State.pixelAddr_lt hAddr
    rw [length_growSet]
    omega
  | setColor =>
    refine .of_attempt h fun c hc => ?_
    rintro ⟨⟩
    obtain ⟨hSel, -⟩ := State.setColorOperands_ok.1 hc
    exact .writesPayload hi fun hFits => by simpa using hSel.length_le hFits
  | setTile =>
    refine .of_attempt h fun c hc => ?_
    rintro ⟨⟩
    obtain ⟨hCell, -⟩ := State.setTileOperands_ok.1 hc
    obtain ⟨hSel, hx, hy⟩ := State.getTileOperands_ok.1 hCell
    refine .writesPayload hi fun hFits => ?_
    have hLen := hSel.length_le hFits
    rw [length_growSet, mapByte, Config.mapWidth]
    omega
  | setFlags =>
    refine .of_attempt h fun c hc => ?_
    rintro ⟨⟩
    obtain ⟨hSprite, -⟩ := State.setFlagsOperands_ok.1 hc
    obtain ⟨hSel, hId⟩ := State.getFlagsOperands_ok.1 hSprite
    refine .writesPayload hi fun hFits => ?_
    have hLen := hSel.length_le hFits
    rw [length_growSet]
    omega
  | setBody =>
    refine .of_attempt h fun d hd => ?_
    rintro ⟨⟩
    obtain ⟨_, -, -, hLen⟩ := State.setBodyOperands_ok.1 hd
    exact .writesPayload hi fun _ => hLen
  | setHeaders =>
    refine .of_attempt h fun d hd => ?_
    rintro ⟨⟩
    obtain ⟨_, _, -, -, -, hLen⟩ := State.setHeadersOperands_ok.1 hd
    exact .writesPayload hi fun _ => hLen
  | wrData =>
    refine .of_attempt h fun c hc => ?_
    rintro ⟨⟩
    obtain ⟨-, hLen⟩ := State.wrDataOperands_ok.1 hc
    exact .writesPayload hi fun _ => by rwa [s.length_din]
  | _ => simp [payloadCommands] at hi

/-- Every command but PARSE has one of the effects: its checks bound what it writes. -/
theorem exec_commandEffect {i : Instr} {s t : State} (hPort : i.port = .command) (hParse : i ≠ .parse)
    (h : exec i s = .next t) : CommandEffect s i t := by
  cases i with
  | parse => exact absurd rfl hParse
  | serialize =>
    simp only [exec, execSerialize] at h
    split at h
    next hLen => cases h; exact .serializes hLen _
    next => cases h
  | setPixel | setColor | setTile | setFlags | setBody | setHeaders | wrData => exact exec_writesPayload (by decide) h
  | getPixel | getTile | getFlags | hasType =>
    refine .of_attempt h fun _ _ => ?_
    rintro ⟨⟩
    exact .answersWord (by decide) _
  | getColor =>
    refine .of_attempt h fun c _ => ?_
    rintro ⟨⟩
    exact .readsColor _ _ _
  | getSource =>
    refine .of_attempt h fun c hc => ?_
    rintro ⟨⟩
    refine .readsRecord (.inl rfl) (fun hFits => ?_) _ _ _
    have hLen := (State.select_ok.1 hc).length_le hFits
    have hSource := length_parseSource_le c.data
    omega
  | rdChunk =>
    refine .of_attempt h fun c hc => ?_
    rintro ⟨⟩
    refine .readsRecord (.inr rfl) (fun hFits => ?_) _ _ _
    have hLen := hFits.getElem? (State.selectAny_ok.1 hc)
    omega
  | lookup =>
    refine .of_attempt h fun n _ hNext => ?_
    split at hNext
    next hLen => cases hNext; exact .listsRecords hLen _
    next => cases hNext
  | create =>
    refine .of_attempt h fun c hc hNext => ?_
    obtain ⟨-, -, hLen, rfl⟩ := State.createOperands_ok.1 hc
    exact .of_appendRecord hNext fun hCap => .creates (by rwa [s.length_din]) hCap _
  | importColors =>
    refine .of_attempt h fun target hTarget => ?_
    obtain ⟨hDin, hFirst, hSize⟩ := State.importOperands_ok.1 hTarget
    cases target with
    | none => exact fun hNext => .of_appendRecord hNext fun hCap => .importsNew (by simp [hDin]) hCap _ _
    | some target =>
      obtain ⟨j, c⟩ := target
      rintro ⟨⟩
      refine .importsInto j (fun hFits => ?_) _ _
      obtain ⟨hGet, -⟩ := firstPalette_some.1 hFirst.symm
      have hLen := hFits.getElem? hGet
      have hPalette := hSize j c rfl
      simp only [List.length_append, List.length_drop, State.length_din, Config.paletteBytes]
      omega
  | _ => cases hPort

/-! ## What each command leaves unchanged (R20, R25 to R29, R34, R87) -/

/-- The fields that no command writes (R25, R29, R34, R35): what the host writes, the parameters, and the model's own. -/
structure State.SameHostSide (s t : State) : Prop where
  cmd : t.cmd = s.cmd
  a : t.a = s.a
  cfgFill : t.cfgFill = s.cfgFill
  inLen : t.inLen = s.inLen
  dinLen : t.dinLen = s.dinLen
  inBuf : t.inBuf = s.inBuf
  dinBuf : t.dinBuf = s.dinBuf
  params : t.params = s.params
  seq : t.seq = s.seq
  staging : t.staging = s.staging
  host : t.host = s.host
  bus : t.bus = s.bus
  freeCount : t.freeCount = s.freeCount

section
variable {i : Instr} {s t : State}

theorem CommandEffect.sameHostSide (h : CommandEffect s i t) : s.SameHostSide t := by
  cases h <;> constructor <;> simp

theorem CommandEffect.pos_eq (h : CommandEffect s i t) : t.pos = s.pos := by
  cases h <;> simp

theorem CommandEffect.out_eq (h : CommandEffect s i t) (hi : i ≠ .serialize) :
    t.outBuf = s.outBuf ∧ t.outLen = s.outLen := by
  cases h with
  | serializes => exact absurd rfl hi
  | _ => simp

theorem CommandEffect.dout_eq (h : CommandEffect s i t) (hi : i ∉ [.getSource, .lookup, .rdChunk]) :
    t.doutBuf = s.doutBuf ∧ t.doutLen = s.doutLen := by
  cases h with
  | readsRecord hRead => obtain rfl | rfl := hRead <;> simp at hi
  | listsRecords => simp at hi
  | _ => simp

theorem notMem_payloadCommands_of_oneWord : ∀ i ∈ oneWordCommands, i ∉ payloadCommands := by decide

theorem CommandEffect.r_eq (h : CommandEffect s i t) (hi : i ∈ payloadCommands) : t.r = s.r := by
  cases h with
  | raises | writesPayload => simp
  | answersWord hWord => exact absurd hi (notMem_payloadCommands_of_oneWord i hWord)
  | readsRecord hRead => obtain rfl | rfl := hRead <;> simp [payloadCommands] at hi
  | _ => simp [payloadCommands] at hi

theorem CommandEffect.r1_eq (h : CommandEffect s i t) (hi : i ∉ [.getColor, .getSource, .rdChunk, .importColors]) :
    t.r[1] = s.r[1] := by
  cases h with
  | readsColor | importsNew | importsInto => simp at hi
  | readsRecord hRead => obtain rfl | rfl := hRead <;> simp at hi
  | _ => simp

theorem CommandEffect.r2_eq (h : CommandEffect s i t) (hi : i ∉ [.getColor, .getSource, .rdChunk]) :
    t.r[2] = s.r[2] := by
  cases h with
  | readsColor => simp at hi
  | readsRecord hRead => obtain rfl | rfl := hRead <;> simp at hi
  | _ => simp

theorem CommandEffect.r3_eq (h : CommandEffect s i t) : t.r[3] = s.r[3] := by
  cases h <;> simp

/-- The commands that read the store and never write it (R87). -/
def readingCommands : List Instr :=
  [.serialize, .getPixel, .getColor, .getTile, .getFlags, .getSource, .lookup, .hasType, .rdChunk]

theorem notMem_readingCommands_of_payload : ∀ i ∈ payloadCommands, i ∉ readingCommands := by decide

theorem CommandEffect.ch_eq (h : CommandEffect s i t) (hi : i ∈ readingCommands) : t.ch = s.ch := by
  cases h with
  | writesPayload hWrite => exact absurd hi (notMem_readingCommands_of_payload i hWrite)
  | creates | importsNew | importsInto => simp [readingCommands] at hi
  | _ => simp

theorem CommandEffect.getElem?_ch_eq (h : CommandEffect s i t) (hi : i ∈ payloadCommands) {k : Nat}
    (hk : k ≠ s.arg 0) : t.ch[k]? = s.ch[k]? := by
  cases h with
  | writesPayload => rw [State.complete_ch, State.getElem?_setData, if_neg hk.symm]
  | creates | importsNew | importsInto => simp [payloadCommands] at hi
  | _ => simp

/-- PARSE writes the store, `POS`, `R[0]` and the error registers (R87, R112, R113). -/
theorem execParse_eq (h : execParse s = .next t) :
    (∃ v, t = { s with ch := t.ch, pos := t.pos, r := s.r.set 0 v }.withErrorsOf t) ∨
      t = { s with pos := t.pos }.withErrorsOf t := by
  obtain ⟨p, -, hEnd⟩ | ⟨staged, p, -, -, hEnd⟩ | ⟨_, _, -, -, hEnd⟩ := execParse_cases s
  · cases hEnd.symm.trans h
    exact .inr rfl
  · cases hEnd.symm.trans h
    exact .inl ⟨_, rfl⟩
  · cases hEnd.symm.trans h

end

/-- Settles O51: PARSE by its two ends, every other command by its effect. -/
theorem commandsWriteOnlyTheirResults : Obligations.CommandsWriteOnlyTheirResults := by
  intro i s t hPort h
  by_cases hParse : i = .parse
  · subst hParse
    obtain ⟨v, ht⟩ | ht := execParse_eq h <;> rw [ht] <;> simp [State.withErrorsOf]
  · have hEffect := exec_commandEffect hPort hParse h
    have hSame := hEffect.sameHostSide
    exact ⟨⟨hSame.cmd, hSame.a, hSame.cfgFill, hSame.inLen, hSame.dinLen, hSame.inBuf, hSame.dinBuf, hSame.params,
        hSame.seq, hSame.staging, hSame.host, hSame.bus, hSame.freeCount⟩, fun _ => hEffect.pos_eq, hEffect.out_eq,
      hEffect.dout_eq, hEffect.r_eq, hEffect.r1_eq, hEffect.r2_eq, hEffect.r3_eq, hEffect.ch_eq,
      fun hi _ => hEffect.getElem?_ch_eq hi⟩

/-- The identities of the records of a store, in order (R22). -/
def identities (cs : List Chunk) : List (BitVec 5 × BitVec 3) := cs.map fun c => (c.typeId, c.bank)

@[simp] theorem State.identities_setData (s : State) (k : Nat) (d : Bytes) :
    identities (s.setData k d).ch = identities s.ch := by
  refine List.ext_getElem? fun j => ?_
  rw [identities, List.getElem?_map, State.getElem?_setData, identities, List.getElem?_map]
  split <;> simp [Function.comp_def]

/-- What a command does to the list of records: payloads aside nothing, or one record more at the end (R21, R205). -/
theorem CommandEffect.identities_eq {i : Instr} {s t : State} (h : CommandEffect s i t) :
    identities t.ch = identities s.ch ∨
      (i = .create ∨ i = .importColors) ∧ ∃ x, identities t.ch = identities s.ch ++ [x] := by
  cases h with
  | writesPayload | importsInto => exact .inl (State.identities_setData s _ _)
  | creates => exact .inr ⟨.inl rfl, _, List.map_append⟩
  | importsNew => exact .inr ⟨.inr rfl, _, List.map_append⟩
  | _ => simp

/-- Settles O52, on the identities of the store. -/
theorem recordsKeepTheirIdentity : Obligations.RecordsKeepTheirIdentity := by
  intro i s t hPort hParse h
  change identities (t.ch.take s.ch.length) = identities s.ch ∧ _
  have hTake : identities (t.ch.take s.ch.length) = (identities t.ch).take s.ch.length := List.map_take
  have hLen (cs : List Chunk) : (identities cs).length = cs.length := List.length_map _
  obtain hSame | ⟨hi, x, hMore⟩ := (exec_commandEffect hPort hParse h).identities_eq
  · rw [hTake, hSame, ← hLen s.ch, ← hLen t.ch, hSame]
    simp
  · have hOne := congrArg List.length hMore
    rw [List.length_append, hLen, hLen] at hOne
    exact ⟨by rw [hTake, hMore, ← hLen s.ch, List.take_left], .inr ⟨hOne, hi⟩⟩

/-! ## The invariant, operation by operation (R22, R23, R27, R34, R50, R221, R227) -/

theorem CmdError.code_le (e : CmdError) : e.code.toNat ≤ 5 := by
  cases e <;> simp [CmdError.code]

/-- Only `InvalidArgument`, code 1, carries an argument and its range (R227). -/
theorem CmdError.info_eq_zero {e : CmdError} (h : e.code ≠ 1#8) : e.arg = 0#8 ∧ e.lo = 0#32 ∧ e.hi = 0#32 := by
  cases e with
  | invalidArgument => exact absurd rfl h
  | _ => exact ⟨rfl, rfl, rfl⟩

theorem Mem.below_nil (n : Nat) : Mem.below [] n := nofun

/-- Settles O55: every space, the store and the staging list are empty at reset. -/
theorem resetMeetsTheInvariant : Obligations.ResetMeetsTheInvariant where
  inWf := Mem.wf_nil
  outWf := Mem.wf_nil
  dinWf := Mem.wf_nil
  doutWf := Mem.wf_nil
  inSpace := Mem.below_nil _
  dinSpace := Mem.below_nil _
  outSpace := Mem.below_nil _
  doutSpace := Mem.below_nil _
  store := nofun
  staged := nofun
  capacity := Nat.zero_le _
  cursor := nofun
  settled := fun _ => rfl
  errCode := Nat.zero_le _
  errInfo := fun _ => ⟨rfl, rfl, rfl⟩

theorem Mem.below_ofBytes {bs : Bytes} {n : Nat} (h : bs.length ≤ n) : Mem.below (Mem.ofBytes bs) n := by
  intro c hc
  have := (Mem.mem_ofBytesFrom hc).2.1
  omega

theorem Mem.below_write {m : Mem} {a n : Nat} {b : Byte} (hm : Mem.below m n) (ha : a < n) :
    Mem.below (Mem.write m a b) n := by
  intro c hc
  obtain rfl | hc := Mem.mem_write hc
  · exact ha
  · exact hm c hc

theorem storeFits_append_singleton {cs : List Chunk} {c : Chunk} (h : storeFits cs) (hc : c.data.length ≤ 65535) :
    storeFits (cs ++ [c]) := by
  intro d hd
  obtain hd | hd := List.mem_append.1 hd
  · exact h d hd
  · exact List.mem_singleton.1 hd ▸ hc

theorem State.pulseReset_inv (s : State) : s.pulseReset.Inv :=
  { resetMeetsTheInvariant with capacity := Nat.zero_le _ }

section
variable {s : State}

theorem State.Inv.raise (h : s.Inv) (e : CmdError) : (s.raise e).Inv :=
  { h with errCode := e.code_le, errInfo := CmdError.info_eq_zero }

theorem State.Inv.complete (h : s.Inv) : s.complete.Inv :=
  { h with errCode := Nat.zero_le _, errInfo := fun _ => ⟨rfl, rfl, rfl⟩ }

theorem State.Inv.setR (h : s.Inv) (i : Fin 4) (v : Word) : (s.setR i v).Inv := { h with }

theorem State.Inv.setOut (h : s.Inv) {bs : Bytes} (hbs : bs.length < 2 ^ 32) : (s.setOut bs).Inv :=
  { h with
    outWf := Mem.wf_ofBytes bs
    outSpace := Mem.below_ofBytes (by rw [State.setOut_outLen, BitVec.toNat_ofNat, Nat.mod_eq_of_lt hbs]) }

theorem State.Inv.setDout (h : s.Inv) {bs : Bytes} (hbs : bs.length < 2 ^ 32) : (s.setDout bs).Inv :=
  { h with
    doutWf := Mem.wf_ofBytes bs
    doutSpace := Mem.below_ofBytes (by rw [State.setDout_doutLen, BitVec.toNat_ofNat, Nat.mod_eq_of_lt hbs]) }

theorem State.Inv.setData (h : s.Inv) (k : Nat) {d : Bytes} (hd : d.length ≤ 65535) : (s.setData k d).Inv :=
  { h with
    store := s.storeFits_setData k hd h.store
    capacity := by rw [s.length_setData]; exact h.capacity }

theorem State.Inv.append (h : s.Inv) {c : Chunk} (hc : c.data.length ≤ 65535)
    (hCap : s.ch.length < s.params.maxChunks.toNat) : { s with ch := s.ch ++ [c] }.Inv :=
  { h with
    store := storeFits_append_singleton h.store hc
    capacity := by simpa using hCap }

theorem State.Inv.accept (h : s.Inv) (hSeq : s.seq ≠ .parsing) : s.accept.Inv :=
  { h with
    cursor := nofun
    settled := fun _ => h.settled hSeq }

/-- The host's list, what it read last and the count of free values are not in the invariant. -/
theorem State.Inv.hostFields (h : s.Inv) (l : List HostAccess) (v : Word) (n : Nat) :
    { s with host := l, bus := v, freeCount := n }.Inv := { h with }

theorem State.Inv.passFrame (h : s.Inv) (hSeq : s.seq = .parsing) {f : Frame} {rest : Bytes}
    (hTake : takeFrame s.streamBytes = .ok (f, rest)) : (s.passFrame f).Inv :=
  { h with
    staged := storeFits_append_singleton h.staged (takeFrame_payload_le hTake)
    cursor := fun _ => by
      obtain ⟨hPos, hLeft⟩ := s.toNat_pos_passFrame hTake
      rw [hPos, State.passFrame_inLen]
      omega
    settled := absurd hSeq }

theorem State.Inv.truncateParse (h : s.Inv) : s.truncateParse.Inv :=
  State.Inv.raise (s := { s with staging := [], seq := .idle })
    { h with staged := nofun, cursor := nofun, settled := fun _ => rfl } _

theorem State.Inv.commitParse {t : State} (h : s.Inv) (hCommit : s.commitParse = .next t) : t.Inv := by
  obtain ⟨hCap, hNext⟩ | ⟨-, hRefused⟩ := s.commitParse_cases
  · cases hNext.symm.trans hCommit
    refine State.Inv.complete (State.Inv.setR ?_ _ _)
    exact { h with
      store := h.staged, staged := nofun, capacity := hCap, cursor := nofun, settled := fun _ => rfl }
  · cases hRefused.symm.trans hCommit

/-! ## The invariant, step by step -/

theorem CommandEffect.inv {i : Instr} {t : State} (hEffect : CommandEffect s i t) (h : s.Inv) : t.Inv := by
  cases hEffect with
  | raises _ e => exact h.raise e
  | writesPayload _ hd => exact (h.setData _ (hd h.store)).complete
  | answersWord _ v => exact (h.setR _ _).complete
  | readsColor => exact (((h.setR _ _).setR _ _).setR _ _).complete
  | readsRecord _ hd => exact ((((h.setDout (hd h.store)).setR _ _).setR _ _).setR _ _).complete
  | listsRecords hd => exact ((h.setDout hd).setR _ _).complete
  | serializes ho => exact ((h.setOut ho).setR _ _).complete
  | creates hc hCap => exact ((h.append hc hCap).setR _ _).complete
  | importsNew hc hCap => exact (((h.append hc hCap).setR _ _).setR _ _).complete
  | importsInto _ hd => exact (((h.setData _ (hd h.store)).setR _ _).setR _ _).complete

/-- A stream that parses to its end gives records that fit (R79, R110). -/
theorem storeFits_of_parseStream {bs : Bytes} {staged : List Chunk} {p : Nat}
    (h : parseStream bs = .complete staged p) : storeFits staged := by
  obtain ⟨more, hFits, hEnd⟩ | ⟨_, _, _, hEnd⟩ := parseFrames_cases bs.length bs 0 [] (Nat.le_refl _)
  · cases hEnd.symm.trans h
    exact hFits
  · cases hEnd.symm.trans h

theorem State.Inv.execParse {t : State} (h : s.Inv) (hSeq : s.seq ≠ .parsing)
    (hParse : Machine.execParse s = .next t) : t.Inv := by
  obtain ⟨p, -, hEnd⟩ | ⟨staged, p, hStream, hCap, hEnd⟩ | ⟨_, _, -, -, hEnd⟩ := execParse_cases s
  · cases hEnd.symm.trans hParse
    refine State.Inv.raise ?_ _
    exact { h with cursor := fun hp => absurd hp hSeq }
  · cases hEnd.symm.trans hParse
    refine State.Inv.complete (State.Inv.setR ?_ _ _)
    exact { h with
      store := storeFits_of_parseStream hStream, capacity := hCap, cursor := fun hp => absurd hp hSeq }
  · cases hEnd.symm.trans hParse

theorem decodeCommand_port {op : Byte} {i : Instr} (h : decodeCommand op = .ok i) : i.port = .command := by
  unfold decodeCommand at h
  split at h <;> cases h <;> rfl

theorem fetchCommand_port {i : Instr} (h : s.fetchCommand = .ok i) : i.port = .command := by
  simp only [State.fetchCommand, decode] at h
  cases hDecode : decodeCommand s.cmd with
  | ok j =>
    simp only [hDecode] at h
    cases h
    exact decodeCommand_port hDecode
  | error e =>
    simp only [hDecode] at h
    cases h

theorem State.Inv.exec {i : Instr} {t : State} (h : s.Inv) (hSeq : s.seq ≠ .parsing) (hPort : i.port = .command)
    (hExec : Machine.exec i s = .next t) : t.Inv := by
  by_cases hParse : i = .parse
  · subst hParse
    exact h.execParse hSeq hExec
  · exact (exec_commandEffect hPort hParse hExec).inv h

theorem State.Inv.writeReg {t : State} {offset : Nat} {v : Word} {reg : Reg} (h : s.Inv) (hSeq : s.seq = .idle)
    (hWrite : s.writeReg offset v reg = .next t) : t.Inv := by
  have hNot : s.seq ≠ .parsing := by simp [hSeq]
  cases reg with
  | cmd =>
    cases hWrite
    exact { h with cursor := nofun, settled := fun _ => h.settled hNot }
  | inLen =>
    cases hWrite
    exact { h with cursor := fun hp => absurd hp hNot }
  | cfgFill | dinLen | a =>
    cases hWrite
    exact { h with }
  | _ => cases hWrite

theorem State.Inv.access {x : HostAccess} {t : State} (h : s.Inv) (hSeq : s.seq = .idle)
    (hAccess : s.access x = .next t) : t.Inv := by
  cases x with
  | writeReg offset v =>
    simp only [State.access] at hAccess
    cases hReg : regAt offset with
    | none => rw [hReg] at hAccess; cases hAccess
    | some reg => rw [hReg] at hAccess; exact h.writeReg hSeq hAccess
  | readReg offset =>
    simp only [State.access] at hAccess
    cases hReg : regAt offset with
    | none => rw [hReg] at hAccess; cases hAccess
    | some reg =>
      rw [hReg] at hAccess
      cases hAccess
      rw [s.readReg_frame reg]
      exact h.hostFields _ _ _
  | writeIn addr b =>
    simp only [State.access] at hAccess
    split at hAccess
    next hAddr =>
      cases hAccess
      exact { h with inWf := Mem.wf_write _ _ h.inWf, inSpace := Mem.below_write h.inSpace hAddr }
    next => cases hAccess
  | writeDin addr b =>
    simp only [State.access] at hAccess
    split at hAccess
    next hAddr =>
      cases hAccess
      exact { h with dinWf := Mem.wf_write _ _ h.dinWf, dinSpace := Mem.below_write h.dinSpace hAddr }
    next => cases hAccess
  | readOut addr =>
    cases hAccess
    rw [State.readBuf_frame]
    exact h.hostFields _ _ _
  | readDout addr =>
    cases hAccess
    rw [State.readBuf_frame]
    exact h.hostFields _ _ _
  | reset =>
    cases hAccess
    exact s.pulseReset_inv

end

/-- Settles O54, phase by phase of the sequencer: the host's access, the command, or the pass of PARSE's loop. -/
theorem stepKeepsTheInvariant : Obligations.StepKeepsTheInvariant := by
  intro s t h hStep
  cases hSeq : s.seq with
  | idle =>
    cases hHost : s.host with
    | nil =>
      obtain rfl : s = t := by simpa [step, hSeq, State.hostStep, hHost] using hStep
      exact h
    | cons x rest =>
      rw [step_idle hSeq hHost] at hStep
      exact (h.hostFields rest _ _).access hSeq hStep
  | issued =>
    have hAccept := h.accept (by simp [hSeq])
    cases hFetch : s.fetchCommand with
    | ok i =>
      rw [step_issued hSeq hFetch] at hStep
      exact hAccept.exec (by simp) (fetchCommand_port hFetch) hStep
    | error e =>
      cases (step_reserved hSeq hFetch).symm.trans hStep
      exact hAccept.raise _
  | parsing =>
    obtain ⟨-, hCommit⟩ | ⟨f, rest, -, hTake, hPass⟩ | ⟨e, -, -, hCut⟩ := step_parsing_cases hSeq
    · exact h.commitParse (hCommit ▸ hStep)
    · cases hPass.symm.trans hStep
      exact h.passFrame hSeq hTake
    · cases hCut.symm.trans hStep
      exact h.truncateParse

/-! ## The host's accesses (R28 to R34, R50, R60, R61) -/

section
variable {s : State} {rest : List HostAccess} {off : Nat} {reg : Reg}

theorem step_readReg (hSeq : s.seq = .idle) (hHost : s.host = .readReg off :: rest) (hReg : regAt off = some reg) :
    step s = .next ({ s with host := rest }.readReg reg) := by
  simp only [step_idle hSeq hHost, State.access, hReg]

theorem step_writeReg {v : Word} (hSeq : s.seq = .idle) (hHost : s.host = .writeReg off v :: rest)
    (hReg : regAt off = some reg) : step s = { s with host := rest }.writeReg off v reg := by
  simp only [step_idle hSeq hHost, State.access, hReg]

theorem step_writeIn {addr : Word} {b : Byte} (hSeq : s.seq = .idle) (hHost : s.host = .writeIn addr b :: rest)
    (hAddr : addr.toNat < Config.maxSpace) :
    step s = .next { s with host := rest, inBuf := Mem.write s.inBuf addr.toNat b } := by
  rw [step_idle hSeq hHost, State.access, if_pos hAddr]

theorem step_writeDin {addr : Word} {b : Byte} (hSeq : s.seq = .idle) (hHost : s.host = .writeDin addr b :: rest)
    (hAddr : addr.toNat < Config.maxSpace) :
    step s = .next { s with host := rest, dinBuf := Mem.write s.dinBuf addr.toNat b } := by
  rw [step_idle hSeq hHost, State.access, if_pos hAddr]

theorem step_readOut {addr : Word} (hSeq : s.seq = .idle) (hHost : s.host = .readOut addr :: rest) :
    step s = .next ({ s with host := rest }.readBuf s.outBuf s.outLen addr) := by
  rw [step_idle hSeq hHost, State.access]

theorem step_readDout {addr : Word} (hSeq : s.seq = .idle) (hHost : s.host = .readDout addr :: rest) :
    step s = .next ({ s with host := rest }.readBuf s.doutBuf s.doutLen addr) := by
  rw [step_idle hSeq hHost, State.access]

end

theorem State.flagsWord_eq (s : State) : s.flagsWord = if s.pos = s.inLen then 1#32 else 0#32 := by
  simp [State.flagsWord, State.eoi]

/-- The operand registers stand at four bytes each from 0x40 on (R29). -/
theorem regAt_a : ∀ i : Fin 6, regAt (0x40 + 4 * i.val) = some (.a i) := by decide

/-- The readable registers of R29 with what each holds, `CMD` left out (U16). -/
def State.window (s : State) : List (Nat × Word) :=
  [(0x04, s.err.setWidth 32), (0x08, s.errArg.setWidth 32), (0x0C, s.errLo), (0x10, s.errHi),
    (0x14, BitVec.ofNat 32 s.ch.length), (0x18, s.pos), (0x1C, if s.pos = s.inLen then 1#32 else 0#32),
    (0x20, s.cfgFill.setWidth 32), (0x24, s.inLen), (0x28, s.outLen), (0x2C, s.dinLen), (0x30, s.doutLen),
    (0x40, s.a[0]), (0x44, s.a[1]), (0x48, s.a[2]), (0x4C, s.a[3]), (0x50, s.a[4]), (0x54, s.a[5]),
    (0x60, s.r[0]), (0x64, s.r[1]), (0x68, s.r[2]), (0x6C, s.r[3])]

/-- Each entry of the window is a register that reads as that entry (R28, R29, R33). -/
theorem State.window_readReg (s : State) :
    ∀ p ∈ s.window, ∃ reg, regAt p.1 = some reg ∧ s.readReg reg = s.answer p.2 := by
  simp only [State.window, List.forall_mem_cons]
  exact ⟨⟨.err, rfl, rfl⟩, ⟨.errArg, rfl, rfl⟩, ⟨.errLo, rfl, rfl⟩, ⟨.errHi, rfl, rfl⟩, ⟨.chn, rfl, rfl⟩,
    ⟨.pos, rfl, rfl⟩, ⟨.flags, rfl, congrArg s.answer s.flagsWord_eq⟩, ⟨.cfgFill, rfl, rfl⟩, ⟨.inLen, rfl, rfl⟩,
    ⟨.outLen, rfl, rfl⟩, ⟨.dinLen, rfl, rfl⟩, ⟨.doutLen, rfl, rfl⟩, ⟨.a 0, rfl, rfl⟩, ⟨.a 1, rfl, rfl⟩,
    ⟨.a 2, rfl, rfl⟩, ⟨.a 3, rfl, rfl⟩, ⟨.a 4, rfl, rfl⟩, ⟨.a 5, rfl, rfl⟩, ⟨.r 0, rfl, rfl⟩, ⟨.r 1, rfl, rfl⟩,
    ⟨.r 2, rfl, rfl⟩, ⟨.r 3, rfl, rfl⟩, nofun⟩

/-- Settles O56: each offset through the register that stands there. -/
theorem registerWindow : Obligations.RegisterWindow := by
  refine ⟨?_, ?_, ?_⟩
  · intro s rest off v hSeq hHost hMem
    obtain ⟨reg, hReg, hRead⟩ := State.window_readReg { s with host := rest } (off, v) hMem
    rw [step_readReg hSeq hHost hReg, hRead]
    rfl
  · intro s rest hSeq hHost
    exact ⟨_, step_readReg hSeq hHost rfl⟩
  · intro s rest off v hSeq hHost
    refine ⟨?_, ?_, ?_, ?_, ?_⟩
    · rintro rfl
      exact step_writeReg hSeq hHost rfl
    · rintro rfl
      exact step_writeReg hSeq hHost rfl
    · rintro rfl
      exact step_writeReg hSeq hHost rfl
    · rintro rfl
      exact step_writeReg hSeq hHost rfl
    · rintro i rfl
      exact step_writeReg hSeq hHost (regAt_a i)

theorem toNat_lt_maxSpace {addr : Word} (h : addr ≠ 0xFFFFFFFF#32) : addr.toNat < Config.maxSpace := by
  have hLt := addr.isLt
  have hNe : addr.toNat ≠ 4294967295 := fun hEq => h (BitVec.eq_of_toNat_eq hEq)
  rw [Config.maxSpace]
  omega

theorem byteAt_readRange {m : Mem} {n i : Nat} (h : i < n) : byteAt (Mem.readRange m 0 n) i = Mem.read m i := by
  rw [byteAt_eq_getElem (by simpa using h), Mem.getElem_readRange, Nat.zero_add]

theorem State.readBuf_below {m : Mem} {len addr : Word} (h : addr < len) (s : State) :
    s.readBuf m len addr = s.answer ((byteAt (Mem.readRange m 0 len.toNat) addr.toNat).setWidth 32) := by
  rw [State.readBuf, if_pos h, byteAt_readRange (BitVec.lt_def.1 h)]

/-- Settles O57: the writes of `IN` and `DIN`, then the reads of `OUT` and `DOUT`. -/
theorem bufferAccess : Obligations.BufferAccess := by
  refine ⟨fun s rest addr b hSeq hAddr => ⟨fun hHost => ?_, fun hHost => ?_⟩,
    fun s rest addr hSeq => ⟨fun hHost hLt => ?_, fun hHost hLt => ?_⟩⟩
  · exact ⟨_, step_writeIn hSeq hHost (toNat_lt_maxSpace hAddr), fun x => Mem.read_write _ _ _ _⟩
  · exact ⟨_, step_writeDin hSeq hHost (toNat_lt_maxSpace hAddr), fun x => Mem.read_write _ _ _ _⟩
  · rw [step_readOut hSeq hHost, State.readBuf_below hLt]
    rfl
  · rw [step_readDout hSeq hHost, State.readBuf_below hLt]
    rfl

/-! ## The host's sequences (R95) -/

/-- A sequence of byte writes to one space. `put` gives the state for what is left of the host's list and for the
space: the one thing the two input buffers differ in. -/
theorem run_fillFrom {write : Word → Byte → HostAccess} {put : List HostAccess → Mem → State}
    (hStep : ∀ rest m (addr : Word) b, addr.toNat < Config.maxSpace →
      step (put (write addr b :: rest) m) = .next (put rest (Mem.write m addr.toNat b)))
    (bs : Bytes) (rest : List HostAccess) (m : Mem) (a k : Nat) (hLen : a + bs.length ≤ Config.maxSpace) :
    Host.Core.run core (bs.length + k) (put (fillFrom write a bs ++ rest) m) =
      Host.Core.run core k (put rest (Mem.writeBytes m a bs)) := by
  induction bs generalizing m a with
  | nil => rw [List.length_nil, Nat.zero_add]; rfl
  | cons b bs ih =>
    rw [List.length_cons] at hLen
    rw [Config.maxSpace] at hLen
    have hAddr : (BitVec.ofNat 32 a).toNat = a := by
      rw [BitVec.toNat_ofNat]
      exact Nat.mod_eq_of_lt (by omega)
    have hFirst := hStep (fillFrom write (a + 1) bs ++ rest) m (BitVec.ofNat 32 a) b
      (by rw [hAddr, Config.maxSpace]; omega)
    rw [hAddr] at hFirst
    rw [List.length_cons, Nat.add_right_comm]
    exact (run_succ hFirst _).trans (ih (Mem.write m a b) (a + 1) (by rw [Config.maxSpace]; omega))

/-- Settles O58: the byte writes, then the write of the length. -/
theorem hostFillsABuffer : Obligations.HostFillsABuffer := by
  intro s bs rest hSeq hLen
  have hSpace : 0 + bs.length ≤ Config.maxSpace := by rw [Config.maxSpace]; omega
  have hWord : (BitVec.ofNat 32 bs.length).toNat = bs.length := by
    rw [BitVec.toNat_ofNat, Nat.mod_eq_of_lt hLen]
  refine ⟨fun hHost => ?_, fun hHost => ?_⟩
  · rw [hostFillIn, List.append_assoc] at hHost
    have hRun := run_fillFrom (write := .writeIn) (put := fun l m => { s with host := l, inBuf := m })
      (fun _ _ _ _ hAddr => step_writeIn hSeq rfl hAddr) bs
      ([.writeReg 0x24 (BitVec.ofNat 32 bs.length)] ++ rest) s.inBuf 0 1 hSpace
    rw [← hHost, run_one] at hRun
    refine ⟨_, hRun.trans (step_writeReg (reg := .inLen) (by exact hSeq) rfl rfl), ?_, rfl⟩
    simp only [State.inBytes, hWord, Mem.readRange_writeBytes]
  · rw [hostFillDin, List.append_assoc] at hHost
    have hRun := run_fillFrom (write := .writeDin) (put := fun l m => { s with host := l, dinBuf := m })
      (fun _ _ _ _ hAddr => step_writeDin hSeq rfl hAddr) bs
      ([.writeReg 0x2C (BitVec.ofNat 32 bs.length)] ++ rest) s.dinBuf 0 1 hSpace
    rw [← hHost, run_one] at hRun
    refine ⟨_, hRun.trans (step_writeReg (reg := .dinLen) (by exact hSeq) rfl rfl), ?_, rfl⟩
    simp only [State.din, hWord, Mem.readRange_writeBytes]

/-- The operand registers after the writes of `A[i]`, `A[i+1]`, … (R29). -/
def setOperands (a : Vector Word 6) (i : Nat) : List Word → Vector Word 6
  | [] => a
  | v :: vs => setOperands (a.setIfInBounds i v) (i + 1) vs

theorem getElem_setOperands (a : Vector Word 6) (i : Nat) (vs : List Word) (j : Fin 6) :
    (setOperands a i vs)[j] = if i ≤ j.val then vs.getD (j.val - i) a[j] else a[j] := by
  induction vs generalizing a i with
  | nil => simp [setOperands]
  | cons v vs ih =>
    rw [setOperands, ih]
    simp only [Fin.getElem_fin, Vector.getElem_setIfInBounds]
    obtain hlt | heq | hgt := Nat.lt_trichotomy i j.val
    · obtain ⟨d, hd⟩ := Nat.exists_eq_add_of_lt hlt
      rw [if_pos (by omega), if_neg (by omega), if_pos (by omega), show j.val - i = (j.val - (i + 1)) + 1 by omega,
        List.getD_cons_succ]
    · rw [if_neg (by omega), if_pos heq, if_pos (by omega), heq, Nat.sub_self, List.getD_cons_zero]
    · rw [if_neg (by omega), if_neg (by omega), if_neg (by omega)]

theorem setIfInBounds_eq_set (a : Vector Word 6) (v : Word) {i : Nat} (hi : i < 6) :
    a.setIfInBounds i v = a.set i v :=
  Vector.ext fun j hj => by rw [Vector.getElem_setIfInBounds hj, Vector.getElem_set hi hj]

/-- The operand writes of R95 leave the operand registers written from `A[i]` on, and nothing else changed. -/
theorem run_hostOperands {s : State} (hSeq : s.seq = .idle) (ops : List Word) (rest : List HostAccess)
    (a : Vector Word 6) (i k : Nat) (hLen : i + ops.length ≤ 6) :
    Host.Core.run core (ops.length + k) { s with host := hostOperands i ops ++ rest, a := a } =
      Host.Core.run core k { s with host := rest, a := setOperands a i ops } := by
  induction ops generalizing a i with
  | nil => rw [List.length_nil, Nat.zero_add]; rfl
  | cons v vs ih =>
    rw [List.length_cons] at hLen
    have hi : i < 6 := by omega
    have hFirst : step { s with host := hostOperands i (v :: vs) ++ rest, a := a } =
        .next { s with host := hostOperands (i + 1) vs ++ rest, a := a.setIfInBounds i v } := by
      rw [step_writeReg (rest := hostOperands (i + 1) vs ++ rest) (by exact hSeq) rfl (regAt_a ⟨i, hi⟩),
        setIfInBounds_eq_set a v hi]
      rfl
    rw [List.length_cons, Nat.add_right_comm]
    exact (run_succ hFirst _).trans (ih (a.setIfInBounds i v) (i + 1) (by omega))

/-- Settles O59: the operand writes, the write of `CMD`, and then the step of O6. -/
theorem hostIssuesACommand : Obligations.HostIssuesACommand := by
  intro s i op ops rest hSeq hLen hDecode hHost
  rw [hostCommand, List.append_assoc] at hHost
  have hRun := run_hostOperands hSeq ops ([.writeReg 0x00 (op.setWidth 32)] ++ rest) s.a 0 1 (by omega)
  rw [← hHost, run_one] at hRun
  have hOp : (op.setWidth 32).setWidth 8 = op := by simp
  refine ⟨{ s with host := rest, a := setOperands s.a 0 ops, cmd := op, seq := .issued }, hRun.trans ?_,
    step_issued rfl (fetchCommand_of_decode hDecode), fun j => ?_, rfl⟩
  · rw [step_writeReg (reg := .cmd) (by exact hSeq) rfl rfl, State.writeReg, hOp]
    rfl
  · simpa using getElem_setOperands s.a 0 ops j

end Sys2Proof.Machine

/-! PROOFS. The memory model of 20_memory.md: a growth-tolerant read (R63) does not see the trailing zeros a payload
loses in SERIALIZE (R127, R261), the size check of a palette does (R262). -/

namespace Sys2Proof.Machine

/-! ## The stripped store (R127) -/

/-- One record of `stripStore`. -/
def Chunk.strip (c : Chunk) : Chunk := { c with data := stripTZ c.data }

/-- The state with every payload of its store stripped. -/
def State.strip (s : State) : State := { s with ch := stripStore s.ch }

/-- A pixel's place in the stripped record: the same byte and nibble. -/
def PixelTarget.strip (t : PixelTarget) : PixelTarget := { t with chunk := t.chunk.strip }

@[simp] theorem Chunk.strip_typeId (c : Chunk) : c.strip.typeId = c.typeId := rfl

@[simp] theorem Chunk.strip_data (c : Chunk) : c.strip.data = stripTZ c.data := rfl

@[simp] theorem PixelTarget.strip_chunk (t : PixelTarget) : t.strip.chunk = t.chunk.strip := rfl

@[simp] theorem PixelTarget.strip_addr (t : PixelTarget) : t.strip.addr = t.addr := rfl

@[simp] theorem PixelTarget.strip_odd (t : PixelTarget) : t.strip.odd = t.odd := rfl

@[simp] theorem State.strip_arg (s : State) (i : Fin 6) : s.strip.arg i = s.arg i := rfl

@[simp] theorem State.length_strip_ch (s : State) : s.strip.ch.length = s.ch.length := List.length_map _

@[simp] theorem State.getElem?_strip_ch (s : State) (k : Nat) : s.strip.ch[k]? = Chunk.strip <$> s.ch[k]? :=
  List.getElem?_map

/-! ## The checks on the stripped store (R16, R136, R162, R172) -/

theorem State.selectAny_strip (s : State) : s.strip.selectAny = Chunk.strip <$> s.selectAny := by
  simp only [State.selectAny, State.strip_arg, State.getElem?_strip_ch, State.length_strip_ch]
  cases s.ch[s.arg 0]? <;> rfl

/-- `Select` looks at a record's type id and not at its payload (R16). -/
theorem State.select_strip (s : State) (cls : CodecClass) : s.strip.select cls = Chunk.strip <$> s.select cls := by
  simp only [State.select, State.selectAny_strip, bind_map_left, map_bind, apply_ite (Functor.map Chunk.strip)]
  rfl

theorem State.pixelAddr_strip (s : State) : s.strip.pixelAddr = PixelTarget.strip <$> s.pixelAddr := by
  simp only [State.pixelAddr, State.select_strip, bind_map_left, map_bind, map_pure, Chunk.strip_typeId,
    State.strip_arg]
  rfl

theorem State.getTileOperands_strip (s : State) : s.strip.getTileOperands = Chunk.strip <$> s.getTileOperands := by
  simp only [State.getTileOperands, State.select_strip, bind_map_left, map_bind, map_pure, State.strip_arg]

theorem State.getFlagsOperands_strip (s : State) : s.strip.getFlagsOperands = Chunk.strip <$> s.getFlagsOperands := by
  simp only [State.getFlagsOperands, State.select_strip, bind_map_left, map_bind, map_pure, State.strip_arg]

/-! ## The reading commands on the stripped store (R63, R127, R261) -/

/-- A command that checks no payload and answers one word that stripping does not change: its error or its answer is the
same on the stripped store. -/
theorem attempt_strip {α : Type} {s t : State} {checks checks' : Except CmdError α} {strip : α → α} {word : α → Word}
    (hChecks : checks' = strip <$> checks) (hWord : ∀ x, word (strip x) = word x)
    (h : attempt s checks (fun x => .next (s.setR 0 (word x)).complete) = .next t) :
    attempt s.strip checks' (fun x => .next (s.strip.setR 0 (word x)).complete) = .next t.strip := by
  subst hChecks
  cases checks with
  | error e => cases h; rfl
  | ok x =>
    cases h
    exact congrArg (fun w => Host.Outcome.next (s.strip.setR 0 w).complete) (hWord x)

theorem exec_getPixel_strip {s t : State} (h : exec .getPixel s = .next t) : exec .getPixel s.strip = .next t.strip :=
  attempt_strip s.pixelAddr_strip (fun p => by simp) h

theorem exec_getTile_strip {s t : State} (h : exec .getTile s = .next t) : exec .getTile s.strip = .next t.strip :=
  attempt_strip s.getTileOperands_strip (fun c => by simp) h

theorem exec_getFlags_strip {s t : State} (h : exec .getFlags s = .next t) : exec .getFlags s.strip = .next t.strip :=
  attempt_strip s.getFlagsOperands_strip (fun c => by simp) h

/-! ## The palette hazard (R151, R262) -/

theorem checkPaletteSize_fail {d : Bytes} (h : d.length < 48) : checkPaletteSize d = .error .underSizedPalettePayload :=
  if_pos h

/-- GETCOLOR's last check: a selected palette of fewer than 48 bytes (R151, R152). -/
theorem State.getColorOperands_underSized {s : State} {c : Chunk} (hSel : s.selects .palette c) (hId : s.arg 1 ≤ 15)
    (hSize : c.data.length < 48) : s.getColorOperands = .error .underSizedPalettePayload := by
  simp only [State.getColorOperands, State.select_ok.2 hSel, checkRange_pass ⟨Nat.zero_le _, hId⟩,
    checkPaletteSize_fail hSize, bind, Except.bind]

theorem exec_getColor_underSized {s : State} {c : Chunk} (hSel : s.selects .palette c) (hId : s.arg 1 ≤ 15)
    (hSize : c.data.length < 48) : exec .getColor s = .next (s.withError 5#8) := by
  change execGetColor s = _
  rw [execGetColor, State.getColorOperands_underSized hSel hId hSize]
  rfl

/-- Stripping keeps a palette selected: its index and type id are kept (R24, R127). -/
theorem State.selects_palette_strip {s : State} {c : Chunk} (hGet : s.ch[s.arg 0]? = some c) (hType : c.typeId = 12#5) :
    s.strip.selects .palette c.strip :=
  ⟨by simp [hGet], by rw [Chunk.strip_typeId, hType]; rfl⟩

/-- Settles O53: the three reading commands one by one, then the size check on the stripped palette. -/
theorem strippingAndTheReadingCommands : Obligations.StrippingAndTheReadingCommands := by
  refine ⟨fun i s t hi h => ?_, fun s c hGet hType hId hSize => ?_⟩
  · simp only [List.mem_cons, List.not_mem_nil, or_false] at hi
    obtain rfl | rfl | rfl := hi
    · exact exec_getPixel_strip h
    · exact exec_getTile_strip h
    · exact exec_getFlags_strip h
  · exact exec_getColor_underSized (State.selects_palette_strip hGet hType) hId hSize

end Sys2Proof.Machine

/-! PROOFS. The encoding of 30_encoding.md: frames and opcodes (R75 to R87, R89), the header byte under both shifts
(R76 to R78), the byte stream as frames and a tail (R84, R85, R113), what SERIALIZE writes (R125), and the header list
(R93). Each format has one lemma that says which bytes read as which value; both directions of a round trip are read
off it. -/

namespace Sys2Proof.Machine

/-! ## Frames (R75 to R79, R83 to R85) -/

/-- Two bytes are those of the length they carry (R52). -/
theorem encodeLe16_le16 (lo hi : Byte) : encodeLe16 (le16 lo hi) = [lo, hi] := by
  have hLo := lo.isLt
  have hHi := hi.isLt
  have hLow : BitVec.ofNat 8 (le16 lo hi) = lo := BitVec.eq_of_toNat_eq (by simp only [le16, BitVec.toNat_ofNat]; omega)
  have hHigh : BitVec.ofNat 8 (le16 lo hi / 256) = hi :=
    BitVec.eq_of_toNat_eq (by simp only [le16, BitVec.toNat_ofNat]; omega)
  rw [encodeLe16, hLow, hHigh]

/-- A header byte is made of its two fields (R83). -/
theorem headerByte_of_fields (hb : Byte) : (hb.extractLsb' 5 3 ++ hb.extractLsb' 0 5 : BitVec 8) = hb := by
  revert hb; decide

/-- The bytes that read as a frame and a rest are those of the frame, its payload within 16 bits, and the rest (R75,
R79, R84). -/
theorem takeFrame_eq_ok_iff {bs rest : Bytes} {f : Frame} :
    takeFrame bs = .ok (f, rest) ↔ f.payload.length ≤ 65535 ∧ bs = encodeFrame f ++ rest := by
  constructor
  · intro h
    obtain ⟨hb, b1, b2, rfl, hLen, hType, hBank⟩ := takeFrame_ok.1 h
    refine ⟨takeFrame_payload_le h, ?_⟩
    rw [encodeFrame, hLen, encodeLe16_le16, hType, hBank, headerByte_of_fields]
    simp
  · rintro ⟨hLen, rfl⟩
    obtain ⟨hType, hBank⟩ := headerByte_fields f.bank f.typeId
    exact takeFrame_ok.2 ⟨f.bank ++ f.typeId, _, _, by simp [encodeFrame, encodeLe16], (le16_encode hLen).symm,
      hType.symm, hBank.symm⟩

theorem toInstr_of_form {i : Instr} {f : Frame} (h : i.form = .frame f) : f.toInstr = i := by
  cases i <;> cases h <;> rfl

theorem toInstr_eq_iff {i : Instr} {f : Frame} : f.toInstr = i ↔ i.form = .frame f :=
  ⟨fun h => h ▸ f.form_toInstr, toInstr_of_form⟩

/-- A frame instruction is well formed when its payload fits the length field (R79). -/
theorem wellFormed_iff_of_form_frame {i : Instr} {f : Frame} (h : i.form = .frame f) :
    i.wellFormed = true ↔ f.payload.length ≤ 65535 := by
  have hFits : i.wellFormed = payloadFits f.payload := by cases i <;> cases h <;> rfl
  rw [hFits, payloadFits, decide_eq_true_iff, Config.maxPayload]

theorem decode_frame_eq_ok_iff {bs rest : Bytes} {i : Instr} :
    decode .frame bs = .ok (i, rest) ↔ ∃ f, i.form = .frame f ∧ takeFrame bs = .ok (f, rest) := by
  simp only [decode, decodeFrame, ← toInstr_eq_iff]
  cases takeFrame bs with
  | error e => simp
  | ok p => simp [Prod.ext_iff]

/-! ## Opcodes (R86, R87, R89) -/

/-- A command has no operand in its encoding, so it is always well formed. -/
theorem wellFormed_of_form_command {i : Instr} {op : Byte} (h : i.form = .command op) : i.wellFormed = true := by
  cases i <;> cases h <;> rfl

/-- An opcode reads as the one command it is assigned to (R87). -/
theorem decodeCommand_eq_ok_iff {op : Byte} {i : Instr} : decodeCommand op = .ok i ↔ i.form = .command op := by
  constructor
  · intro h
    unfold decodeCommand at h
    split at h <;> cases h <;> exact congrArg Form.command (BitVec.eq_of_toNat_eq (Eq.symm ‹_›))
  · intro h
    cases i <;> cases h <;> rfl

/-- No command has an opcode that R89 reserves. -/
theorem not_reservedOpcode_of_form {i : Instr} {op : Byte} (h : i.form = .command op) :
    ¬ reservedOpcode op.toNat := by
  unfold reservedOpcode
  cases i <;> cases h <;> decide

theorem decodeCommand_reserved {op : Byte} (h : reservedOpcode op.toNat) : ∃ e, decodeCommand op = .error e := by
  cases hDecode : decodeCommand op with
  | error e => exact ⟨e, rfl⟩
  | ok i => exact absurd h (not_reservedOpcode_of_form (decodeCommand_eq_ok_iff.1 hDecode))

/-- A pending opcode that decodes to nothing raises (R89). -/
theorem step_issued_error {s : State} {e : Reject} (hSeq : s.seq = .issued) (hDecode : decodeCommand s.cmd = .error e) :
    step s = .next s.accept.raiseOpcode := by
  simp only [step, hSeq, State.fetchCommand, decode, hDecode]

/-- Settles O5: a reserved opcode decodes to nothing, and the step raises. -/
theorem reservedOpcodeRaises : Obligations.ReservedOpcodeRaises := by
  intro s hSeq hReserved
  obtain ⟨e, hDecode⟩ := decodeCommand_reserved hReserved
  exact step_issued_error hSeq hDecode

/-! ## The decoder of both formats (R75 to R87) -/

theorem decode_command_eq_ok_iff {bs rest : Bytes} {i : Instr} :
    decode .command bs = .ok (i, rest) ↔ ∃ op, i.form = .command op ∧ bs = op :: rest := by
  cases bs with
  | nil => simp [decode]
  | cons op bs =>
    have hOpcode : (∃ op', i.form = .command op' ∧ op :: bs = op' :: rest) ↔
        decodeCommand op = .ok i ∧ bs = rest := by
      simp [decodeCommand_eq_ok_iff]
    rw [hOpcode, decode]
    cases decodeCommand op <;> simp

/-- The bytes that a port reads as an instruction and a rest: the instruction is well formed, of that port, and the
bytes are its encoding and the rest. -/
theorem decode_eq_ok_iff {p : Port} {bs rest : Bytes} {i : Instr} :
    decode p bs = .ok (i, rest) ↔ i.wellFormed = true ∧ i.port = p ∧ encode i ++ rest = bs := by
  cases hForm : i.form with
  | frame f =>
    cases p with
    | frame =>
      simp only [decode_frame_eq_ok_iff, takeFrame_eq_ok_iff, wellFormed_iff_of_form_frame hForm, Instr.port, encode,
        hForm, Form.frame.injEq, exists_eq_left', true_and, @eq_comm _ bs]
    | command => simp [decode_command_eq_ok_iff, Instr.port, hForm]
  | command op =>
    cases p with
    | frame => simp [decode_frame_eq_ok_iff, Instr.port, hForm]
    | command =>
      simp only [decode_command_eq_ok_iff, wellFormed_of_form_command hForm, Instr.port, encode, hForm,
        Form.command.injEq, exists_eq_left', true_and, List.singleton_append, @eq_comm _ bs]

/-- Settles O1: the bytes of a well-formed instruction read as it. -/
theorem decodeGivesBackEveryInstruction : Obligations.DecodeGivesBackEveryInstruction :=
  fun _ _ hWf => decode_eq_ok_iff.2 ⟨hWf, rfl, rfl⟩

/-- Settles O2: the other direction of the same equivalence. -/
theorem encodeGivesBackTheBytesRead : Obligations.EncodeGivesBackTheBytesRead :=
  fun _ _ _ _ => decode_eq_ok_iff.1

/-- Settles O4: each byte string is decoded. -/
theorem spelledOutWordsDecode : Obligations.SpelledOutWordsDecode :=
  ⟨rfl, rfl, rfl, rfl, rfl, rfl, rfl, rfl, rfl⟩

/-! ## The header byte under both shifts (R76 to R78) -/

/-- The header byte as a number: neither shift pushes a bank out of the byte (R76). -/
theorem toNat_headerByte (shift : Config.BankShift) (c : Chunk) :
    (headerByte shift c).toNat = c.bank.toNat * 2 ^ shift.amount + c.typeId.toNat := by
  have hBank := c.bank.isLt
  have hType := c.typeId.isLt
  rw [headerByte, BitVec.toNat_ofNat]
  cases shift <;> simp only [Config.BankShift.amount] <;> omega

/-- The frame of a header without payload, its header byte split at bit 5 (R77). -/
theorem takeFrame_header (hb fill : Byte) : ∃ f, takeFrame [hb, 0x00#8, 0x00#8, fill] = .ok (f, []) ∧
    f.typeId.toNat = hb.toNat % 32 ∧ f.bank.toNat = hb.toNat / 32 := by
  have hLt := hb.isLt
  refine ⟨⟨hb.extractLsb' 0 5, hb.extractLsb' 5 3, fill, []⟩, rfl, ?_, ?_⟩ <;>
    simp only [BitVec.extractLsb'_toNat, Nat.shiftRight_eq_div_pow] <;> omega

/-- Settles O3: the number the header byte is, split at bit 5, for each shift. -/
theorem headerByteRoundTrip : Obligations.HeaderByteRoundTrip := by
  refine ⟨fun shift c fill => ?_, rfl⟩
  obtain ⟨f, hTake, hType, hBank⟩ := takeFrame_header (headerByte shift c) fill
  have hBankLt := c.bank.isLt
  have hTypeLt := c.typeId.isLt
  rw [toNat_headerByte] at hType hBank
  refine ⟨f, hTake, ?_, ?_⟩
  · rw [← BitVec.toNat_inj, ← BitVec.toNat_inj, ← BitVec.toNat_inj, hType, hBank]
    cases shift with
    | three => simp only [Config.BankShift.amount, reduceCtorEq, false_or, BitVec.toNat_ofNat]; omega
    | five => simp only [Config.BankShift.amount, true_or, iff_true]; omega
  · rintro rfl
    rw [hType, hBank, Config.BankShift.amount, Nat.mul_comm]
    exact ⟨rfl, rfl⟩

/-! ## The byte stream as frames and a tail (R84, R85, R111, R113) -/

/-- Where no frame can be taken there is nothing, or a cut frame (R85, R113). -/
theorem cutFrame_of_takeFrame_error {bs : Bytes} {e : Reject} (h : takeFrame bs = .error e) :
    bs = [] ∨ cutFrame bs := by
  match bs, h with
  | [], _ => exact .inl rfl
  | [_], _ | [_, _], _ | [_, _, _], _ => exact .inr (.inl ⟨by simp, by simp⟩)
  | hb :: b1 :: b2 :: b3 :: body, h =>
    rw [takeFrame] at h
    split at h
    next hShort => exact .inr (.inr ⟨hb, b1, b2, b3, body, rfl, hShort⟩)
    next => cases h

/-- A byte string cut into complete frames and a tail that holds no frame. -/
def FramesThenTail (bs : Bytes) (fs : List Frame) (tail : Bytes) : Prop :=
  bs = fs.flatMap encodeFrame ++ tail ∧ (∀ f ∈ fs, f.payload.length ≤ 65535) ∧ (tail = [] ∨ cutFrame tail)

theorem framesThenTail_nil {bs tail : Bytes} :
    FramesThenTail bs [] tail ↔ bs = tail ∧ (bs = [] ∨ cutFrame bs) := by
  simp only [FramesThenTail, List.flatMap_nil, List.nil_append, List.not_mem_nil, false_imp_iff, implies_true,
    true_and]
  exact and_congr_right fun h => by rw [h]

/-- The first frame of a cutting is the one the decoder takes. -/
theorem framesThenTail_cons {bs tail : Bytes} {f : Frame} {fs : List Frame} :
    FramesThenTail bs (f :: fs) tail ↔ ∃ rest, takeFrame bs = .ok (f, rest) ∧ FramesThenTail rest fs tail := by
  simp only [FramesThenTail, takeFrame_eq_ok_iff, List.flatMap_cons, List.append_assoc, List.forall_mem_cons]
  constructor
  · rintro ⟨rfl, ⟨hf, hfs⟩, hTail⟩
    exact ⟨_, ⟨hf, rfl⟩, rfl, hfs, hTail⟩
  · rintro ⟨_, ⟨hf, rfl⟩, rfl, hfs, hTail⟩
    exact ⟨rfl, ⟨hf, hfs⟩, hTail⟩

theorem exists_framesThenTail (bs : Bytes) : ∃ fs tail, FramesThenTail bs fs tail := by
  cases hTake : takeFrame bs with
  | error e => exact ⟨[], bs, framesThenTail_nil.2 ⟨rfl, cutFrame_of_takeFrame_error hTake⟩⟩
  | ok p =>
    obtain ⟨f, rest⟩ := p
    have hLen := takeFrame_length hTake
    obtain ⟨fs, tail, h⟩ := exists_framesThenTail rest
    exact ⟨f :: fs, tail, framesThenTail_cons.2 ⟨rest, hTake, h⟩⟩
termination_by bs.length

/-- Two cuttings of one byte string take the same frames one by one, and stop together: where one stops no frame can be
taken. -/
theorem FramesThenTail.unique {bs tail tail' : Bytes} {fs gs : List Frame} (h : FramesThenTail bs fs tail)
    (h' : FramesThenTail bs gs tail') : fs = gs ∧ tail = tail' := by
  induction fs generalizing bs gs with
  | nil =>
    obtain ⟨rfl, hCut⟩ := framesThenTail_nil.1 h
    cases gs with
    | nil => exact ⟨rfl, (framesThenTail_nil.1 h').1⟩
    | cons g gs =>
      obtain ⟨e, hError⟩ := takeFrame_error_of_cutFrame hCut
      obtain ⟨_, hTake, -⟩ := framesThenTail_cons.1 h'
      cases hError.symm.trans hTake
  | cons f fs ih =>
    obtain ⟨rest, hTake, hRest⟩ := framesThenTail_cons.1 h
    cases gs with
    | nil =>
      obtain ⟨e, hError⟩ := takeFrame_error_of_cutFrame (framesThenTail_nil.1 h').2
      cases hError.symm.trans hTake
    | cons g gs =>
      obtain ⟨_, hTake', hRest'⟩ := framesThenTail_cons.1 h'
      cases hTake.symm.trans hTake'
      obtain ⟨rfl, rfl⟩ := ih hRest hRest'
      exact ⟨rfl, rfl⟩

/-- Settles O12: taking frames while there is one gives a cutting, and every cutting is that one. -/
theorem everyStreamIsFramesThenATail : Obligations.EveryStreamIsFramesThenATail :=
  fun bs => ⟨exists_framesThenTail bs, fun _ _ _ _ hBs hFits hTail hBs' hFits' hTail' =>
    FramesThenTail.unique ⟨hBs, hFits, hTail⟩ ⟨hBs', hFits', hTail'⟩⟩

/-! ## What SERIALIZE writes (R125 to R132) -/

theorem exec_serialize {s : State} (h : (serializeStore s.params s.cfgFill s.ch).length < 2 ^ 32) :
    exec .serialize s = .next ((s.setOut (serializeStore s.params s.cfgFill s.ch)).setR 0
      (BitVec.ofNat 32 (serializeStore s.params s.cfgFill s.ch).length)).complete :=
  if_pos h

/-- Settles O18: the stream is `serializeStore`, and `OUT` reads back what is put in it. -/
theorem serializeWritesEveryFrame : Obligations.SerializeWritesEveryFrame := by
  refine ⟨rfl, fun s o hStream hLen => ?_⟩
  obtain rfl : o = serializeStore s.params s.cfgFill s.ch := hStream
  exact ⟨_, exec_serialize hLen, s.out_setOut hLen, rfl⟩

/-! ## The header list (R93) -/

/-- One header of the wire format. -/
def encodeHeader (h : Header) : Bytes := encodeLe16 h.1.length ++ h.1 ++ encodeLe16 h.2.length ++ h.2

/-- A header whose key and value fit 16-bit lengths. -/
def headerFits (h : Header) : Prop := h.1.length ≤ 65535 ∧ h.2.length ≤ 65535

@[simp] theorem length_encodeHeader (h : Header) : (encodeHeader h).length = h.1.length + h.2.length + 4 := by
  simp only [encodeHeader, List.length_append, length_encodeLe16]
  omega

theorem encodeHeaders_cons (h : Header) (hs : List Header) :
    encodeHeaders (h :: hs) = encodeHeader h ++ encodeHeaders hs := rfl

/-- The bytes that read as a field and a rest are the field's length, the field, within 16 bits, and the rest. -/
theorem takeField_eq_some_iff {bs d rest : Bytes} :
    takeField bs = some (d, rest) ↔ d.length ≤ 65535 ∧ bs = encodeLe16 d.length ++ d ++ rest := by
  constructor
  · intro h
    obtain ⟨lo, hi, rfl, hLen⟩ := takeField_some.1 h
    exact ⟨hLen ▸ le16_le lo hi, by rw [hLen, encodeLe16_le16]; rfl⟩
  · rintro ⟨hLen, rfl⟩
    exact takeField_some.2 ⟨_, _, rfl, (le16_encode hLen).symm⟩

/-- One pass of the reading: a key, a value, and the headers behind them. -/
theorem decodeHeaders_succ {fuel : Nat} {bs : Bytes} (hne : bs ≠ []) : decodeHeaders (fuel + 1) bs =
    (takeField bs).bind fun p => (takeField p.2).bind fun q => (decodeHeaders fuel q.2).map ((p.1, q.1) :: ·) := by
  cases bs with
  | nil => exact absurd rfl hne
  | cons b bs =>
    rw [decodeHeaders]
    cases takeField (b :: bs) with
    | none => rfl
    | some p =>
      obtain ⟨key, afterKey⟩ := p
      cases hValue : takeField afterKey <;> simp [hValue]

/-- The empty list is read from no bytes at all, and from nothing else. -/
theorem decodeHeaders_eq_nil_iff {fuel : Nat} {bs : Bytes} : decodeHeaders fuel bs = some [] ↔ bs = [] := by
  by_cases hne : bs = []
  · simp [hne, decodeHeaders]
  · cases fuel with
    | zero => cases bs <;> simp [decodeHeaders]
    | succ fuel => simp [decodeHeaders_succ hne, Option.bind_eq_some_iff, hne]

/-- The first header read is at the front of the bytes, and the others are read from what stands behind it. -/
theorem decodeHeaders_eq_cons_iff {fuel : Nat} {bs : Bytes} {h : Header} {hs : List Header} :
    decodeHeaders (fuel + 1) bs = some (h :: hs) ↔
      headerFits h ∧ ∃ rest, bs = encodeHeader h ++ rest ∧ decodeHeaders fuel rest = some hs := by
  by_cases hne : bs = []
  · subst hne
    simp [decodeHeaders, encodeHeader, encodeLe16]
  · simp only [decodeHeaders_succ hne, Option.bind_eq_some_iff, Option.map_eq_some_iff, Prod.exists,
      takeField_eq_some_iff, List.cons.injEq, headerFits, encodeHeader]
    constructor
    · rintro ⟨_, _, ⟨hKey, rfl⟩, _, rest, ⟨hValue, rfl⟩, _, hRest, rfl, rfl⟩
      exact ⟨⟨hKey, hValue⟩, rest, by simp, hRest⟩
    · rintro ⟨⟨hKey, hValue⟩, rest, rfl, hRest⟩
      exact ⟨h.1, _, ⟨hKey, by simp⟩, h.2, rest, ⟨hValue, rfl⟩, hs, hRest, rfl, rfl⟩

/-- The bytes that read as a header list are its wire format, every key and value within 16 bits (R93). -/
theorem decodeHeaders_eq_some_iff {fuel : Nat} {bs : Bytes} {hs : List Header} (hFuel : bs.length ≤ fuel) :
    decodeHeaders fuel bs = some hs ↔ encodeHeaders hs = bs ∧ ∀ h ∈ hs, headerFits h := by
  induction hs generalizing fuel bs with
  | nil =>
    rw [decodeHeaders_eq_nil_iff]
    exact ⟨fun hNil => ⟨hNil.symm, by simp⟩, fun hNil => hNil.1.symm⟩
  | cons h hs ih =>
    cases fuel with
    | zero =>
      obtain rfl : bs = [] := List.eq_nil_of_length_eq_zero (Nat.le_zero.1 hFuel)
      simp [decodeHeaders, encodeHeaders_cons, encodeHeader, encodeLe16]
    | succ fuel =>
      rw [decodeHeaders_eq_cons_iff, List.forall_mem_cons, encodeHeaders_cons]
      constructor
      · rintro ⟨hFits, rest, rfl, hRest⟩
        obtain ⟨rfl, hRestFits⟩ := (ih (by simp at hFuel; omega)).1 hRest
        exact ⟨rfl, hFits, hRestFits⟩
      · rintro ⟨rfl, hFits, hRestFits⟩
        exact ⟨hFits, _, rfl, (ih (by simp at hFuel; omega)).2 ⟨rfl, hRestFits⟩⟩

/-- Settles O36: the bytes by definition, both readings from one equivalence. -/
theorem headerListRoundTrip : Obligations.HeaderListRoundTrip :=
  ⟨fun _ => rfl, fun _ hFits => (decodeHeaders_eq_some_iff (Nat.le_refl _)).2 ⟨rfl, hFits⟩,
    fun _ _ => (decodeHeaders_eq_some_iff (Nat.le_refl _)).1⟩

end Sys2Proof.Machine

/-! PROOFS. The container parse of 40_container_parse.md: the 32 frame passes (R111, R117 to R124) and PARSE of complete
frames (R110, R112, R114) or of frames and a cut one (R113). One lemma takes the loop over a run of encoded frames; the
obligations read off how it ends on what stands behind them. -/

namespace Sys2Proof.Machine

/-! ## The frame pass (R110, R111) -/

/-- Settles O11: the one meaning of the frame instructions, with the fields of `passFrame` written out. -/
theorem framePassAppendsTheRecord : Obligations.FramePassAppendsTheRecord :=
  fun _ _ s h => exec_of_form_frame h s

/-! ## PARSE's loop over encoded frames (R84, R110, R111) -/

@[simp] theorem length_encodeFrame (f : Frame) : (encodeFrame f).length = 4 + f.payload.length := by
  simp only [encodeFrame, List.length_append, length_encodeLe16, List.length_singleton]

/-- An encoded frame is not empty, so a stream has at least as many bytes as frames: its length is enough fuel. -/
theorem length_le_length_encodeFrames (fs : List Frame) : fs.length ≤ (fs.flatMap encodeFrame).length := by
  induction fs with
  | nil => exact Nat.le_refl 0
  | cons f fs ih =>
    simp only [List.flatMap_cons, List.length_append, length_encodeFrame, List.length_cons]
    omega

/-- The loop takes encoded frames one by one: it stages their records in order and stands behind them. -/
theorem parseFrames_encodeFrames {fs : List Frame} (hFits : ∀ f ∈ fs, f.payload.length ≤ 65535) (fuel : Nat)
    (tail : Bytes) (p : Nat) (staged : List Chunk) :
    parseFrames (fuel + fs.length) (fs.flatMap encodeFrame ++ tail) p staged =
      parseFrames fuel tail (p + (fs.flatMap encodeFrame).length) (staged ++ fs.map frameRecord) := by
  induction fs generalizing p staged with
  | nil => simp
  | cons f fs ih =>
    obtain ⟨hf, hfs⟩ := List.forall_mem_cons.1 hFits
    have hTake : takeFrame ((f :: fs).flatMap encodeFrame ++ tail) = .ok (f, fs.flatMap encodeFrame ++ tail) :=
      takeFrame_eq_ok_iff.2 ⟨hf, by rw [List.flatMap_cons, List.append_assoc]⟩
    rw [List.length_cons, ← Nat.add_assoc, parseFrames_pass hTake, ih hfs]
    simp [Nat.add_assoc]

/-- PARSE's whole loop on encoded frames and a tail is what it does on the tail, behind the frames. -/
theorem parseStream_encodeFrames {fs : List Frame} (hFits : ∀ f ∈ fs, f.payload.length ≤ 65535) (tail : Bytes) :
    ∃ fuel, parseStream (fs.flatMap encodeFrame ++ tail) =
      parseFrames fuel tail (fs.flatMap encodeFrame).length (fs.map frameRecord) := by
  obtain ⟨fuel, hFuel⟩ := Nat.exists_eq_add_of_le' (length_le_length_encodeFrames fs)
  refine ⟨fuel + tail.length, ?_⟩
  rw [parseStream, List.length_append, hFuel, Nat.add_right_comm, parseFrames_encodeFrames hFits, ← hFuel,
    Nat.zero_add, List.nil_append]

/-- A stream of complete frames parses to its end (R110, R112). -/
theorem parseStream_complete {fs : List Frame} (hFits : ∀ f ∈ fs, f.payload.length ≤ 65535) :
    parseStream (fs.flatMap encodeFrame) = .complete (fs.map frameRecord) (fs.flatMap encodeFrame).length := by
  obtain ⟨fuel, hEnd⟩ := parseStream_encodeFrames hFits []
  rw [List.append_nil, parseFrames_nil] at hEnd
  exact hEnd

theorem ne_nil_of_cutFrame {tail : Bytes} (h : cutFrame tail) : tail ≠ [] := by
  obtain ⟨hne, -⟩ | ⟨_, _, _, _, _, rfl, -⟩ := h
  · exact hne
  · exact List.cons_ne_nil _ _

/-- The loop stops at a cut frame, with the cursor at its first byte (R113). -/
theorem parseStream_truncated {fs : List Frame} {tail : Bytes} (hFits : ∀ f ∈ fs, f.payload.length ≤ 65535)
    (hCut : cutFrame tail) :
    parseStream (fs.flatMap encodeFrame ++ tail) = .truncated (fs.flatMap encodeFrame).length := by
  obtain ⟨fuel, hEnd⟩ := parseStream_encodeFrames hFits tail
  obtain ⟨e, hTake⟩ := takeFrame_error_of_cutFrame (.inr hCut)
  rw [hEnd, parseFrames_stop (ne_nil_of_cutFrame hCut) hTake]

/-! ## PARSE (R110, R112 to R114) -/

@[simp] theorem State.length_inBytes (s : State) : s.inBytes.length = s.inLen.toNat := Mem.length_readRange _ _ _

theorem execParse_complete {s : State} {staged : List Chunk} {p : Nat}
    (h : parseStream s.inBytes = .complete staged p) (hCap : staged.length ≤ s.params.maxChunks.toNat) :
    execParse s = .next
      ({ s with ch := staged, pos := BitVec.ofNat 32 p }.setR 0 (BitVec.ofNat 32 staged.length)).complete := by
  simp only [execParse, h, if_pos hCap]

/-- Settles O13: the loop completes with the frames' records, and the bytes of the frames are all `INLEN` bytes. -/
theorem parseReplacesTheStore : Obligations.ParseReplacesTheStore := by
  intro s fs hStream hFits hCap
  have hEnd : parseStream s.inBytes = .complete (fs.map frameRecord) s.inLen.toNat := by
    rw [← s.length_inBytes, hStream, parseStream_complete hFits]
  have hExec := execParse_complete hEnd (by rwa [List.length_map])
  rw [List.length_map, BitVec.ofNat_toNat, BitVec.setWidth_eq] at hExec
  exact hExec

/-- Settles O14: the loop stops at the cut frame, which is not empty, so its offset is below `INLEN`. -/
theorem truncatedStreamKeepsTheStore : Obligations.TruncatedStreamKeepsTheStore := by
  intro s fs tail hStream hFits hCut
  have hOffset : (fs.flatMap encodeFrame).length < s.inLen.toNat := by
    have hTail := List.length_pos_iff.2 (ne_nil_of_cutFrame hCut)
    rw [← s.length_inBytes, hStream, List.length_append]
    omega
  have hWord : (BitVec.ofNat 32 (fs.flatMap encodeFrame).length).toNat = (fs.flatMap encodeFrame).length := by
    rw [BitVec.toNat_ofNat, Nat.mod_eq_of_lt (hOffset.trans s.inLen.isLt)]
  refine ⟨BitVec.ofNat 32 (fs.flatMap encodeFrame).length, hWord, ?_, ?_⟩
  · rwa [BitVec.lt_def, hWord]
  · exact execParse_truncated (hStream ▸ parseStream_truncated hFits hCut)

/-- Settles O15: the stream of no frames (R114). -/
theorem emptyStreamGivesTheEmptyStore : Obligations.EmptyStreamGivesTheEmptyStore := by
  intro s hLen
  have hNil : s.inBytes = [] := List.eq_nil_of_length_eq_zero (by simp [hLen])
  rw [parseReplacesTheStore s [] hNil (by simp) (Nat.zero_le _), hLen]
  rfl

end Sys2Proof.Machine

/-! PROOFS. SERIALIZE of 41_serialize.md against PARSE (R125, R131), and what lies outside the defined domain (R132,
U6). The bytes SERIALIZE writes for a record are those of one frame, so both directions of R131 are read off that frame: what
PARSE takes from it, and when it is the frame PARSE took. -/

namespace Sys2Proof.Machine

/-! ## The frame SERIALIZE writes for a record (R76 to R78, R125) -/

/-- The frame whose encoding SERIALIZE writes: its header byte is read back with a shift of 5, whatever it was written
with (R77). -/
def serializedFrame (params : Config.Params) (fill : Byte) (c : Chunk) : Frame where
  typeId := (headerByte params.bankShift c).extractLsb' 0 5
  bank := (headerByte params.bankShift c).extractLsb' 5 3
  reserved := fill
  payload := stripTZ c.data

theorem encodeFrame_serializedFrame (params : Config.Params) (fill : Byte) (c : Chunk) :
    encodeFrame (serializedFrame params fill c) = serializeChunk params fill c := by
  rw [encodeFrame, serializedFrame, headerByte_of_fields, serializeChunk]

theorem serializeStore_eq_encodeFrames (params : Config.Params) (fill : Byte) (cs : List Chunk) :
    serializeStore params fill cs = (cs.map (serializedFrame params fill)).flatMap encodeFrame := by
  simp only [serializeStore, List.flatMap_map, encodeFrame_serializedFrame]

/-- The type id and bank come back exactly under the condition of R78. -/
theorem serializedFrame_keeps_iff (params : Config.Params) (fill : Byte) (c : Chunk) :
    (serializedFrame params fill c).typeId = c.typeId ∧ (serializedFrame params fill c).bank = c.bank ↔
      bankSurvives params.bankShift c := by
  obtain ⟨f, hTake, hKeeps, -⟩ := headerByteRoundTrip.1 params.bankShift c fill
  have hFields : takeFrame [headerByte params.bankShift c, 0x00#8, 0x00#8, fill] =
      .ok ({ serializedFrame params fill c with payload := [] }, []) := rfl
  cases hTake.symm.trans hFields
  exact hKeeps

theorem stripTZ_eq_self_iff {d : Bytes} : stripTZ d = d ↔ d.getLast? ≠ some 0#8 := by
  constructor
  · intro h hLast
    obtain ⟨ds, rfl⟩ := List.getLast?_eq_some_iff.1 hLast
    have hLen := length_stripTZ_le ds
    rw [stripTZ_concat, if_pos rfl] at h
    simp [h] at hLen
  · intro h
    exact stripTZ_eq_self fun hne hLast => h (by rw [List.getLast?_eq_getLast_of_ne_nil hne, hLast])

/-- When SERIALIZE writes the frame PARSE took a record from (R131). -/
theorem serializedFrame_frameRecord_eq_iff {params : Config.Params} {fill : Byte} {f : Frame} :
    serializedFrame params fill (frameRecord f) = f ↔
      f.payload.getLast? ≠ some 0#8 ∧ f.reserved = fill ∧ bankSurvives params.bankShift (frameRecord f) := by
  rw [← serializedFrame_keeps_iff params fill, ← stripTZ_eq_self_iff]
  obtain ⟨t, bank, reserved, payload⟩ := f
  simp only [serializedFrame, frameRecord, Frame.mk.injEq]
  constructor
  · rintro ⟨hType, hBank, hFill, hPayload⟩
    exact ⟨hPayload, hFill.symm, hType, hBank⟩
  · rintro ⟨hPayload, hFill, hType, hBank⟩
    exact ⟨hType, hBank, hFill.symm, hPayload⟩

theorem serializedFrames_fit (params : Config.Params) (fill : Byte) {cs : List Chunk} (hFits : storeFits cs) :
    ∀ f ∈ cs.map (serializedFrame params fill), f.payload.length ≤ 65535 := by
  intro f hf
  obtain ⟨c, hc, rfl⟩ := List.mem_map.1 hf
  exact (length_stripTZ_le c.data).trans (hFits c hc)

/-! ## The length of the stream (R125, R132) -/

@[simp] theorem length_serializeChunk (params : Config.Params) (fill : Byte) (c : Chunk) :
    (serializeChunk params fill c).length = 4 + (stripTZ c.data).length := by
  rw [← encodeFrame_serializedFrame, length_encodeFrame, serializedFrame]

theorem length_serializeStore (params : Config.Params) (fill : Byte) (cs : List Chunk) :
    (serializeStore params fill cs).length = (cs.map fun c => 4 + (stripTZ c.data).length).sum := by
  simp only [serializeStore, List.length_flatMap, length_serializeChunk]

/-- Stripping only shortens, so the records of a stream serialize to no more bytes than the stream has. -/
theorem length_serializeStore_frameRecords_le (params : Config.Params) (fill : Byte) (fs : List Frame) :
    (serializeStore params fill (fs.map frameRecord)).length ≤ (fs.flatMap encodeFrame).length := by
  rw [length_serializeStore, List.map_map, List.length_flatMap]
  refine List.sum_le_sum fun f _ => ?_
  rw [length_encodeFrame]
  exact Nat.add_le_add_left (length_stripTZ_le f.payload) 4

/-! ## SERIALIZE, then PARSE (R131) -/

theorem exec_serialize_refused {s : State} (h : 2 ^ 32 ≤ (serializeStore s.params s.cfgFill s.ch).length) :
    exec .serialize s = .refused (.overCapacity "SERIALIZE") :=
  if_neg (Nat.not_lt.2 h)

/-- A SERIALIZE that completes wrote the whole stream to `OUT`, below 2^32 bytes; the parameters stay (R125, R129). -/
theorem exec_serialize_next {s t : State} (h : exec .serialize s = .next t) :
    t.out = serializeStore s.params s.cfgFill s.ch ∧ t.params = s.params := by
  obtain hLen | hOver := Nat.lt_or_ge (serializeStore s.params s.cfgFill s.ch).length (2 ^ 32)
  · cases (exec_serialize hLen).symm.trans h
    exact ⟨s.out_setOut hLen, rfl⟩
  · cases (exec_serialize_refused hOver).symm.trans h

/-- Settles O19: the stream read back is the frames SERIALIZE wrote, so the new store is their records. -/
theorem serializeThenParse : Obligations.SerializeThenParse := by
  intro s t hFits hCap hExec
  obtain ⟨hOut, hParams⟩ := exec_serialize_next hExec
  have hStream : t.copyOutToIn.inBytes = (s.ch.map (serializedFrame s.params s.cfgFill)).flatMap encodeFrame :=
    hOut.trans (serializeStore_eq_encodeFrames _ _ _)
  refine ⟨_, parseReplacesTheStore t.copyOutToIn _ hStream (serializedFrames_fit _ _ hFits) ?_, rfl, ?_, ?_⟩
  · rw [List.length_map]
    exact hCap.trans_eq (congrArg (·.maxChunks.toNat) hParams.symm)
  · simp [State.withError]
  · intro k c hGet
    refine ⟨frameRecord (serializedFrame s.params s.cfgFill c), ?_, rfl,
      (serializedFrame_keeps_iff s.params s.cfgFill c).2⟩
    simp [State.withError, hGet, frameRecord]

/-! ## PARSE, then SERIALIZE (R131) -/

/-- Complete frames are read off their bytes in one way only (R84, R111). -/
theorem encodeFrames_eq_iff {fs gs : List Frame} (hFits : ∀ f ∈ fs, f.payload.length ≤ 65535)
    (hFits' : ∀ g ∈ gs, g.payload.length ≤ 65535) :
    fs.flatMap encodeFrame = gs.flatMap encodeFrame ↔ fs = gs := by
  refine ⟨fun h => ?_, congrArg _⟩
  have hCut : FramesThenTail (fs.flatMap encodeFrame) fs [] := ⟨(List.append_nil _).symm, hFits, .inl rfl⟩
  have hCut' : FramesThenTail (fs.flatMap encodeFrame) gs [] := ⟨h.trans (List.append_nil _).symm, hFits', .inl rfl⟩
  exact (hCut.unique hCut').1

/-- The records of a stream serialize to that stream exactly when every frame is written as it was taken (R131). -/
theorem serializeStore_frameRecords_eq_iff {params : Config.Params} {fill : Byte} {fs : List Frame}
    (hFits : ∀ f ∈ fs, f.payload.length ≤ 65535) :
    serializeStore params fill (fs.map frameRecord) = fs.flatMap encodeFrame ↔
      ∀ f ∈ fs, serializedFrame params fill (frameRecord f) = f := by
  have hRecordsFit : storeFits (fs.map frameRecord) := List.forall_mem_map.2 hFits
  have hMap := List.map_inj_left (f := serializedFrame params fill ∘ frameRecord) (g := id) (l := fs)
  rw [List.map_id] at hMap
  rw [serializeStore_eq_encodeFrames, encodeFrames_eq_iff (serializedFrames_fit params fill hRecordsFit) hFits,
    List.map_map, hMap]
  rfl

/-- PARSE of more than `MAX_CHUNKS` complete frames is outside the defined domain (U6, log 4). -/
theorem exec_parse_overCapacity {s : State} {fs : List Frame} (hStream : s.inBytes = fs.flatMap encodeFrame)
    (hFits : ∀ f ∈ fs, f.payload.length ≤ 65535) (hOver : s.params.maxChunks.toNat < fs.length) :
    exec .parse s = .refused (.overCapacity "PARSE") := by
  change execParse s = _
  simp only [execParse, hStream, parseStream_complete hFits, List.length_map, if_neg (Nat.not_le.2 hOver)]

/-- A PARSE of complete frames that completes made their records the store, and left what SERIALIZE reads beside it
(R110, R112). -/
theorem exec_parse_next {s t : State} {fs : List Frame} (hStream : s.inBytes = fs.flatMap encodeFrame)
    (hFits : ∀ f ∈ fs, f.payload.length ≤ 65535) (h : exec .parse s = .next t) :
    t.ch = fs.map frameRecord ∧ t.params = s.params ∧ t.cfgFill = s.cfgFill := by
  have hCap : fs.length ≤ s.params.maxChunks.toNat := by
    by_contra hOver
    cases (exec_parse_overCapacity hStream hFits (Nat.not_le.1 hOver)).symm.trans h
  cases (parseReplacesTheStore s fs hStream hFits hCap).symm.trans h
  exact ⟨rfl, rfl, rfl⟩

/-- Settles O20: PARSE kept every frame's record, and SERIALIZE writes the stream back when it writes every frame
back. -/
theorem parseThenSerialize : Obligations.ParseThenSerialize := by
  intro s t fs hStream hFits hExec
  obtain ⟨hStore, hParams, hFill⟩ := exec_parse_next hStream hFits hExec
  have hLen : (serializeStore t.params t.cfgFill t.ch).length < 2 ^ 32 := by
    rw [hStore]
    refine (length_serializeStore_frameRecords_le _ _ fs).trans_lt ?_
    rw [← hStream, s.length_inBytes]
    exact s.inLen.isLt
  have hSerialize := exec_serialize hLen
  refine ⟨_, hSerialize, ?_⟩
  rw [(exec_serialize_next hSerialize).1, hStore, hParams, hFill, hStream, serializeStore_frameRecords_eq_iff hFits]
  exact forall₂_congr fun _ _ => serializedFrame_frameRecord_eq_iff

/-! ## Beyond capacity (R132, U6) -/

theorem appendRecord_overCapacity {s : State} (hFull : s.ch.length = s.params.maxChunks.toNat) (name : String)
    (c : Chunk) (more : State → State) : s.appendRecord name c more = .refused (.overCapacity name) :=
  if_neg (Nat.not_lt.2 hFull.ge)

theorem exec_create_overCapacity {s : State} (hFull : s.ch.length = s.params.maxChunks.toNat)
    (hType : registered (s.arg 0) = true) (hBank : s.arg 1 ≤ 7) (hLen : s.dinLen.toNat ≤ 65535) :
    exec .create s = .refused (.overCapacity "CREATE") := by
  change execCreate s = _
  rw [execCreate, State.createOperands_ok.2 ⟨hType, hBank, hLen, rfl⟩, attempt_ok, appendRecord_overCapacity hFull]

theorem exec_importColors_overCapacity {s : State} (hFull : s.ch.length = s.params.maxChunks.toNat)
    (hLen : s.dinLen = 48#32) (hNone : ∀ e ∈ s.ch, e.typeId ≠ 12#5) :
    exec .importColors s = .refused (.overCapacity "IMPORT") := by
  have hChecks : s.importOperands = .ok none :=
    State.importOperands_ok.2 ⟨by rw [hLen]; rfl, (firstPalette_none.2 hNone).symm, nofun⟩
  change execImportColors s = _
  rw [execImportColors, hChecks, attempt_ok]
  exact appendRecord_overCapacity hFull _ _ _

theorem exec_serialize_overCapacity {s : State}
    (hOver : 2 ^ 32 ≤ (s.ch.map fun c => 4 + (stripTZ c.data).length).sum) :
    exec .serialize s = .refused (.overCapacity "SERIALIZE") :=
  exec_serialize_refused (hOver.trans_eq (length_serializeStore s.params s.cfgFill s.ch).symm)

theorem exec_lookup_overCapacity {s : State} (hType : s.arg 0 ≤ 31)
    (hOver : 2 ^ 32 ≤ 4 * s.ch.countP (fun c => c.typeId.toNat == s.arg 0)) :
    exec .lookup s = .refused (.overCapacity "LOOKUP") := by
  change execLookup s = _
  rw [execLookup, State.typeOperand_ok.2 ⟨rfl, hType⟩, attempt_ok, length_encodeIndices, length_indicesOfType,
    if_neg (Nat.not_lt.2 hOver)]

/-- Settles O60: command by command. -/
theorem beyondCapacityIsRefused : Obligations.BeyondCapacityIsRefused :=
  fun _ => ⟨exec_create_overCapacity, exec_importColors_overCapacity, fun _ => exec_parse_overCapacity,
    exec_serialize_overCapacity, exec_lookup_overCapacity⟩

end Sys2Proof.Machine

/-! PROOFS. The Tiles and Sprites codec of 42_tiles_sprites.md: the failing forms of a codec command's selector and of
`PixelAddr` (R16, R136), the nibble a pixel is (R135, R138, R140), and SETPIXEL and GETPIXEL on it (R137 to R139). The
payload write of SETPIXEL is one function with one read-after-write rule, `readPixel_paintPixel`. -/

namespace Sys2Proof.Machine

/-! ## Failing checks (R16, R231) -/

/-- A codec command that raises what its selector check raises fails on its selector as R16 says. -/
theorem failsSelect_of_raises {i : Instr} {s : State} {cls : CodecClass} {accepted : List Nat}
    (hAccepts : ∀ t : BitVec 5, t.toNat ∉ accepted → cls.accepts (variant t) = false)
    (hRaises : ∀ e, s.select cls = .error e → exec i s = .next (s.raise e)) :
    failsSelect i s accepted cls.typeRange.1 cls.typeRange.2 :=
  ⟨fun hLen => hRaises _ (State.select_none (List.getElem?_eq_none hLen)),
    fun _ hGet hType => hRaises _ (State.select_wrong hGet (hAccepts _ hType))⟩

theorem accepts_pixels_iff (t : BitVec 5) : CodecClass.pixels.accepts (variant t) = true ↔ t = 1#5 ∨ t = 2#5 := by
  revert t; decide

theorem accepts_pixels_of_notMem (t : BitVec 5) (h : t.toNat ∉ [1, 2]) :
    CodecClass.pixels.accepts (variant t) = false := by
  revert t; decide

/-- A record and a sprite number pass `PixelAddr`'s first two checks exactly when R136 gives the record that sprite. -/
theorem spriteOf_iff {c : Chunk} {id n : Nat} :
    spriteOf c id n ↔
      CodecClass.pixels.accepts (variant c.typeId) = true ∧ spriteNumber (variant c.typeId) id = .ok n := by
  rw [accepts_pixels_iff, spriteNumber_ok, spriteOf]
  constructor
  · rintro (⟨hType, h⟩ | ⟨hType, h⟩)
    · exact ⟨.inl hType, .inl ⟨by rw [hType]; rfl, h⟩⟩
    · exact ⟨.inr hType, .inr ⟨by rw [hType]; decide, h⟩⟩
  · rintro ⟨hType | hType, h⟩
    · exact .inl ⟨hType, by simpa [hType, variant_eq] using h⟩
    · exact .inr ⟨hType, by simpa [hType, variant_eq] using h⟩

/-- Two ids of one record never have the same sprite number (R136). -/
theorem spriteOf.id_unique {c : Chunk} {id id' n : Nat} (h : spriteOf c id n) (h' : spriteOf c id' n) : id = id' := by
  obtain ⟨hType, -, rfl⟩ | ⟨hType, -, -, rfl⟩ := h
  · obtain ⟨-, -, rfl⟩ | ⟨hType', -⟩ := h'
    · rfl
    · rw [hType] at hType'; cases hType'
  · obtain ⟨hType', -⟩ | ⟨-, -, -, rfl⟩ := h'
    · rw [hType] at hType'; cases hType'
    · rfl

/-! ## `PixelAddr` (R136) -/

/-- What `PixelAddr` yields on record `c` for sprite number `n`. -/
def State.pixelTarget (s : State) (c : Chunk) (n : Nat) : PixelTarget where
  chunk := c
  addr := pixelByte n (s.arg 2) (s.arg 3)
  odd := s.arg 2 % 2 == 1

section
variable {s : State} {c : Chunk} {n : Nat}

theorem State.pixelAddr_eq_ok_iff {p : PixelTarget} :
    s.pixelAddr = .ok p ↔ ∃ c n, s.ch[s.arg 0]? = some c ∧ spriteOf c (s.arg 1) n ∧ s.arg 2 ≤ 7 ∧ s.arg 3 ≤ 7 ∧
      p = s.pixelTarget c n := by
  rw [State.pixelAddr_ok]
  constructor
  · rintro ⟨⟨hGet, hAccepts⟩, ⟨n, hn, hAddr⟩, hx, hy, hOdd⟩
    refine ⟨p.chunk, n, hGet, spriteOf_iff.2 ⟨hAccepts, hn⟩, hx, hy, ?_⟩
    rw [State.pixelTarget, ← hAddr, ← hOdd]
  · rintro ⟨c, n, hGet, hSprite, hx, hy, rfl⟩
    obtain ⟨hAccepts, hn⟩ := spriteOf_iff.1 hSprite
    exact ⟨⟨hGet, hAccepts⟩, ⟨n, hn, rfl⟩, hx, hy, rfl⟩

theorem State.pixelAddr_pass (hGet : s.ch[s.arg 0]? = some c) (hSprite : spriteOf c (s.arg 1) n) (hx : s.arg 2 ≤ 7)
    (hy : s.arg 3 ≤ 7) : s.pixelAddr = .ok (s.pixelTarget c n) :=
  State.pixelAddr_eq_ok_iff.2 ⟨c, n, hGet, hSprite, hx, hy, rfl⟩

theorem State.pixelAddr_badSelector {e : CmdError} (h : s.select .pixels = .error e) : s.pixelAddr = .error e := by
  rw [State.pixelAddr, h]; rfl

theorem State.pixelAddr_badId {e : CmdError} (hSel : s.selects .pixels c)
    (hId : spriteNumber (variant c.typeId) (s.arg 1) = .error e) : s.pixelAddr = .error e := by
  simp only [State.pixelAddr, State.select_ok.2 hSel, hId, bind, Except.bind]

theorem State.pixelAddr_badX (hGet : s.ch[s.arg 0]? = some c) (hSprite : spriteOf c (s.arg 1) n) (hx : 7 < s.arg 2) :
    s.pixelAddr = .error (badArgument 0x02#8 0 7) := by
  obtain ⟨hAccepts, hn⟩ := spriteOf_iff.1 hSprite
  simp only [State.pixelAddr, State.select_ok.2 ⟨hGet, hAccepts⟩, hn,
    checkRange_fail (by omega : ¬(0 ≤ s.arg 2 ∧ s.arg 2 ≤ 7)), bind, Except.bind]

theorem State.pixelAddr_badY (hGet : s.ch[s.arg 0]? = some c) (hSprite : spriteOf c (s.arg 1) n) (hx : s.arg 2 ≤ 7)
    (hy : 7 < s.arg 3) : s.pixelAddr = .error (badArgument 0x03#8 0 7) := by
  obtain ⟨hAccepts, hn⟩ := spriteOf_iff.1 hSprite
  simp only [State.pixelAddr, State.select_ok.2 ⟨hGet, hAccepts⟩, hn, checkRange_pass ⟨Nat.zero_le _, hx⟩,
    checkRange_fail (by omega : ¬(0 ≤ s.arg 3 ∧ s.arg 3 ≤ 7)), bind, Except.bind]

end

theorem spriteNumber_tiles_fail {id : Nat} (h : 255 < id) :
    spriteNumber .tiles id = .error (badArgument 0x01#8 0 255) := by
  rw [spriteNumber, if_pos rfl, checkRange_fail (by omega)]; rfl

theorem spriteNumber_sprites_fail {id : Nat} (h : id < 256 ∨ 511 < id) :
    spriteNumber .sprites id = .error (badArgument 0x01#8 256 511) := by
  rw [spriteNumber, if_neg (by decide), checkRange_fail (by omega)]; rfl

/-- A command that raises what `PixelAddr` raises fails on its coordinates as R136 says. -/
theorem failsPixel_of_raises {i : Instr} {s : State}
    (hRaises : ∀ e, s.pixelAddr = .error e → exec i s = .next (s.raise e)) : failsPixel i s := by
  refine ⟨failsSelect_of_raises (cls := .pixels) accepts_pixels_of_notMem fun e he =>
    hRaises e (State.pixelAddr_badSelector he), fun c hGet => ⟨fun hType hId => ?_, fun hType hId => ?_,
    fun n hSprite => ⟨fun hx => ?_, fun hx hy => ?_⟩⟩⟩
  · exact hRaises _ (State.pixelAddr_badId ⟨hGet, (accepts_pixels_iff _).2 (.inl hType)⟩
      (by rw [hType]; exact spriteNumber_tiles_fail hId))
  · exact hRaises _ (State.pixelAddr_badId ⟨hGet, (accepts_pixels_iff _).2 (.inr hType)⟩
      (by rw [hType]; exact spriteNumber_sprites_fail hId))
  · exact hRaises _ (State.pixelAddr_badX hGet hSprite hx)
  · exact hRaises _ (State.pixelAddr_badY hGet hSprite hx hy)

/-- The addressing of R135 is injective: a byte and a nibble of it are one pixel of one sprite. -/
theorem pixelByte_injective {n x y n' x' y' : Nat} (hx : x ≤ 7) (hy : y ≤ 7) (hx' : x' ≤ 7) (hy' : y' ≤ 7)
    (hByte : pixelByte n x y = pixelByte n' x' y') (hNibble : x % 2 = x' % 2) : n = n' ∧ x = x' ∧ y = y' := by
  simp only [pixelByte, Config.spriteBytes, Config.rowBytes] at hByte
  omega

/-! ## Nibbles (R137, R138, R140) -/

theorem toNat_and_low (b : Byte) : (b &&& 0x0F#8).toNat = b.toNat % 16 :=
  Nat.and_two_pow_sub_one_eq_mod b.toNat 4

theorem toNat_and_high (b : Byte) : (b &&& 0xF0#8).toNat = 16 * (b.toNat / 16) := by
  rw [show 0xF0#8 = BitVec.allOnes 8 <<< 4 from rfl, ← BitVec.shiftLeft_ushiftRight, BitVec.toNat_shiftLeft,
    BitVec.toNat_ushiftRight, Nat.shiftLeft_eq, Nat.shiftRight_eq_div_pow]
  omega

theorem toNat_nibbleGet (b : Byte) (odd : Bool) :
    (nibbleGet b odd).toNat = if odd then b.toNat / 16 else b.toNat % 16 := by
  cases odd with
  | false => exact toNat_and_low b
  | true => exact (BitVec.toNat_ushiftRight b 4).trans (Nat.shiftRight_eq_div_pow _ _)

theorem toNat_nibbleSet (b : Byte) (odd : Bool) {color : Nat} (h : color ≤ 15) :
    (nibbleSet b odd color).toNat =
      if odd then b.toNat % 16 + color * 16 else b.toNat / 16 * 16 + color := by
  cases odd with
  | false =>
    have hOr := Nat.two_pow_add_eq_or_of_lt (i := 4) (b := color) (by omega) (b.toNat / 16)
    have hColor : (BitVec.ofNat 8 color).toNat = color := Nat.mod_eq_of_lt (by omega)
    change ((b &&& 0xF0#8) ||| BitVec.ofNat 8 color).toNat = b.toNat / 16 * 16 + color
    rw [BitVec.toNat_or, toNat_and_high, hColor, Nat.mul_comm (b.toNat / 16)]
    exact hOr.symm
  | true =>
    have hOr := Nat.two_pow_add_eq_or_of_lt (i := 4) (b := b.toNat % 16) (by omega) color
    have hColor : (BitVec.ofNat 8 (color <<< 4)).toNat = 2 ^ 4 * color := by
      rw [BitVec.toNat_ofNat, Nat.shiftLeft_eq]; omega
    change ((b &&& 0x0F#8) ||| BitVec.ofNat 8 (color <<< 4)).toNat = b.toNat % 16 + color * 16
    rw [BitVec.toNat_or, toNat_and_low, hColor, Nat.or_comm, ← hOr]
    omega

theorem nibbleGet_nibbleSet (b : Byte) (odd odd' : Bool) {color : Nat} (h : color ≤ 15) :
    nibbleGet (nibbleSet b odd color) odd' = if odd' = odd then BitVec.ofNat 8 color else nibbleGet b odd' := by
  apply BitVec.eq_of_toNat_eq
  rw [toNat_nibbleGet, toNat_nibbleSet b odd h]
  have hb := b.isLt
  by_cases hSame : odd' = odd
  · rw [if_pos hSame, hSame, BitVec.toNat_ofNat]
    split <;> omega
  · rw [if_neg hSame, toNat_nibbleGet, Bool.eq_not_of_ne hSame]
    cases odd with
    | false => simp; omega
    | true => simp

/-! ## Pixels of a payload (R63, R64) -/

/-- The colour at a byte and a nibble of a payload (R138). -/
def readPixel (d : Bytes) (a : Nat) (odd : Bool) : Byte := nibbleGet (byteAt d a) odd

/-- The payload with one nibble replaced, grown up to its byte (R137). -/
def paintPixel (d : Bytes) (a : Nat) (odd : Bool) (color : Nat) : Bytes :=
  growSet d a (nibbleSet (byteAt d a) odd color)

theorem length_paintPixel (d : Bytes) (a : Nat) (odd : Bool) (color : Nat) :
    (paintPixel d a odd color).length = max d.length (a + 1) :=
  length_growSet d a _

theorem byteAt_paintPixel (d : Bytes) (a a' : Nat) (odd : Bool) (color : Nat) :
    byteAt (paintPixel d a odd color) a' = if a' = a then nibbleSet (byteAt d a) odd color else byteAt d a' :=
  byteAt_growSet d a a' _

/-- A painted pixel reads as its colour, every other pixel as before (R139). -/
theorem readPixel_paintPixel (d : Bytes) (a a' : Nat) (odd odd' : Bool) {color : Nat} (h : color ≤ 15) :
    readPixel (paintPixel d a odd color) a' odd' =
      if a' = a ∧ odd' = odd then BitVec.ofNat 8 color else readPixel d a' odd' := by
  rw [readPixel, byteAt_paintPixel]
  by_cases ha : a' = a
  · subst ha
    simp [nibbleGet_nibbleSet _ _ _ h, readPixel]
  · simp [ha, readPixel]

/-- The word GETPIXEL answers: 0 beyond the payload, else the nibble (R138). -/
theorem setWidth_readPixel (d : Bytes) (a x : Nat) :
    (readPixel d a (x % 2 == 1)).setWidth 32 = BitVec.ofNat 32
      (if d.length ≤ a then 0 else if x % 2 = 0 then (byteAt d a).toNat % 16 else (byteAt d a).toNat / 16) := by
  rw [← BitVec.ofNat_toNat, readPixel, toNat_nibbleGet]
  congr 1
  by_cases hLen : d.length ≤ a
  · simp [hLen, byteAt_eq_zero hLen]
  · obtain hx | hx := Nat.mod_two_eq_zero_or_one x
    · simp [hLen, hx]
    · simp [hLen, hx]

/-! ## A selected record with another payload (R205) -/

/-- A record with its payload replaced: what `State.storing` puts in the store. -/
def Chunk.withData (d : Bytes) (c : Chunk) : Chunk := { c with data := d }

@[simp] theorem Chunk.withData_data (d : Bytes) (c : Chunk) : (c.withData d).data = d := rfl

/-- A pixel's place in the record with another payload: the same byte and nibble. -/
def PixelTarget.withData (d : Bytes) (p : PixelTarget) : PixelTarget := { p with chunk := p.chunk.withData d }

section
variable {s : State} {c : Chunk}

theorem State.getElem?_storing (hGet : s.ch[s.arg 0]? = some c) (d : Bytes) :
    (s.storing (s.arg 0) c d).ch[s.arg 0]? = some (c.withData d) :=
  List.getElem?_set_self (List.getElem?_eq_some_iff.1 hGet).1

/-- `State.storing` is the model's own payload write on the record that is there. -/
theorem State.setData_eq_storing {k : Nat} (hGet : s.ch[k]? = some c) (d : Bytes) :
    s.setData k d = s.storing k c d := by
  have hStore : s.ch.modify k (fun e => { e with data := d }) = s.ch.set k { c with data := d } := by
    refine List.ext_getElem? fun j => ?_
    rw [List.getElem?_modify, List.getElem?_set]
    by_cases hj : k = j
    · subst hj
      rw [hGet, if_pos rfl, if_pos (List.getElem?_eq_some_iff.1 hGet).1]
      simp
    · simp [hj]
  rw [State.setData, hStore, State.storing]

theorem State.selectAny_storing (hGet : s.ch[s.arg 0]? = some c) (d : Bytes) :
    (s.storing (s.arg 0) c d).selectAny = Chunk.withData d <$> s.selectAny := by
  rw [State.selectAny_ok.2 hGet]
  exact State.selectAny_ok.2 (State.getElem?_storing hGet d)

/-- `Select` looks at a record's type id and not at its payload (R16). -/
theorem State.select_storing (hGet : s.ch[s.arg 0]? = some c) (d : Bytes) (cls : CodecClass) :
    (s.storing (s.arg 0) c d).select cls = Chunk.withData d <$> s.select cls := by
  simp only [State.select, State.selectAny_storing hGet, bind_map_left, map_bind,
    apply_ite (Functor.map (Chunk.withData d))]
  rfl

theorem State.pixelAddr_storing (hGet : s.ch[s.arg 0]? = some c) (d : Bytes) :
    (s.storing (s.arg 0) c d).pixelAddr = PixelTarget.withData d <$> s.pixelAddr := by
  simp only [State.pixelAddr, State.select_storing hGet, bind_map_left, map_bind, map_pure]
  rfl

end

/-! ## GETPIXEL (R138) -/

section
variable {s : State} {c : Chunk} {n : Nat}

theorem exec_getPixel_ok {p : PixelTarget} (h : s.pixelAddr = .ok p) :
    exec .getPixel s = .next ((s.setR 0 ((readPixel p.chunk.data p.addr p.odd).setWidth 32)).withError 0#8) := by
  change execGetPixel s = _
  rw [execGetPixel, h]
  rfl

theorem exec_getPixel_error {e : CmdError} (h : s.pixelAddr = .error e) : exec .getPixel s = .next (s.raise e) := by
  change execGetPixel s = _
  rw [execGetPixel, h]
  rfl

/-- GETPIXEL's answer on legal operands. -/
theorem exec_getPixel_legal (hGet : s.ch[s.arg 0]? = some c) (hSprite : spriteOf c (s.arg 1) n) (hx : s.arg 2 ≤ 7)
    (hy : s.arg 3 ≤ 7) :
    exec .getPixel s = .next ((s.setR 0 ((readPixel c.data (pixelByte n (s.arg 2) (s.arg 3))
      (s.arg 2 % 2 == 1)).setWidth 32)).withError 0#8) :=
  exec_getPixel_ok (p := s.pixelTarget c n) (State.pixelAddr_pass hGet hSprite hx hy)

end

/-- Settles O22: the failing forms are `PixelAddr`'s; the answer is `readPixel`. -/
theorem getPixelReadsOneNibble : Obligations.GetPixelReadsOneNibble := by
  refine ⟨rfl, fun s => ⟨failsPixel_of_raises fun _ => exec_getPixel_error, fun c n hGet hSprite hx hy => ?_⟩⟩
  rw [exec_getPixel_legal hGet hSprite hx hy, setWidth_readPixel]
  rfl

/-! ## SETPIXEL (R137) -/

section
variable {s : State} {c : Chunk} {n : Nat}

theorem State.setPixelOperands_error {e : CmdError} (h : s.pixelAddr = .error e) : s.setPixelOperands = .error e := by
  rw [State.setPixelOperands, h]; rfl

theorem State.setPixelOperands_badColor {p : PixelTarget} (h : s.pixelAddr = .ok p) (hColor : 15 < s.arg 4) :
    s.setPixelOperands = .error (badArgument 0x04#8 0 15) := by
  simp only [State.setPixelOperands, h, checkRange_fail (by omega : ¬(0 ≤ s.arg 4 ∧ s.arg 4 ≤ 15)), bind, Except.bind]

theorem exec_setPixel_error {e : CmdError} (h : s.setPixelOperands = .error e) :
    exec .setPixel s = .next (s.raise e) := by
  change execSetPixel s = _
  rw [execSetPixel, h]
  rfl

/-- The state SETPIXEL leaves on legal operands: one pixel painted, no error. -/
def State.painted (s : State) (c : Chunk) (n : Nat) : State :=
  (s.storing (s.arg 0) c (paintPixel c.data (pixelByte n (s.arg 2) (s.arg 3)) (s.arg 2 % 2 == 1) (s.arg 4))).withError
    0#8

@[simp] theorem State.painted_arg (s : State) (c : Chunk) (n : Nat) (i : Fin 6) : (s.painted c n).arg i = s.arg i := rfl

/-- SETPIXEL on legal operands. -/
theorem exec_setPixel_legal (hGet : s.ch[s.arg 0]? = some c) (hSprite : spriteOf c (s.arg 1) n) (hx : s.arg 2 ≤ 7)
    (hy : s.arg 3 ≤ 7) (hColor : s.arg 4 ≤ 15) :
    exec .setPixel s = .next (s.painted c n) := by
  change execSetPixel s = _
  rw [execSetPixel, State.setPixelOperands_ok.2 ⟨State.pixelAddr_pass hGet hSprite hx hy, hColor⟩, attempt_ok,
    State.setData_eq_storing hGet]
  rfl

end

/-- Settles O21: the failing forms are `PixelAddr`'s and the colour's; the write is `paintPixel`. -/
theorem setPixelWritesOneNibble : Obligations.SetPixelWritesOneNibble := by
  refine ⟨rfl, fun _ _ _ => rfl, fun s => ⟨failsPixel_of_raises fun e he =>
    exec_setPixel_error (State.setPixelOperands_error he), fun c n hGet hSprite hx hy => ⟨fun hColor => ?_,
    fun hColor => ⟨_, exec_setPixel_legal hGet hSprite hx hy hColor, length_paintPixel _ _ _ _, fun a ha => ?_, ?_⟩⟩⟩⟩
  · exact exec_setPixel_error (State.setPixelOperands_badColor (State.pixelAddr_pass hGet hSprite hx hy) hColor)
  · rw [byteAt_paintPixel, if_neg ha]
  · rw [byteAt_paintPixel, if_pos rfl, toNat_nibbleSet _ _ hColor]
    obtain hEven | hOdd := Nat.mod_two_eq_zero_or_one (s.arg 2)
    · simp [hEven]
    · simp [hOdd]

/-! ## A pixel written is read back (R139) -/

/-- GETPIXEL after a payload write that keeps the pixel it addresses: the same error, or the same colour. -/
theorem exec_getPixel_storing {s v : State} {c : Chunk} {d : Bytes} (hGet : s.ch[s.arg 0]? = some c)
    (hKeeps : ∀ n, spriteOf c (s.arg 1) n → s.arg 2 ≤ 7 → s.arg 3 ≤ 7 →
      readPixel d (pixelByte n (s.arg 2) (s.arg 3)) (s.arg 2 % 2 == 1) =
        readPixel c.data (pixelByte n (s.arg 2) (s.arg 3)) (s.arg 2 % 2 == 1))
    (h : exec .getPixel s = .next v) :
    ∃ w, exec .getPixel ((s.storing (s.arg 0) c d).withError 0#8) = .next w ∧ w.err = v.err ∧ w.r = v.r := by
  have hStored : ((s.storing (s.arg 0) c d).withError 0#8).pixelAddr = PixelTarget.withData d <$> s.pixelAddr :=
    State.pixelAddr_storing hGet d
  cases hAddr : s.pixelAddr with
  | error e =>
    rw [hAddr] at hStored
    cases (exec_getPixel_error hAddr).symm.trans h
    exact ⟨_, exec_getPixel_error hStored, rfl, rfl⟩
  | ok p =>
    rw [hAddr] at hStored
    obtain ⟨c', n, hGet', hSprite, hx, hy, hp⟩ := State.pixelAddr_eq_ok_iff.1 hAddr
    cases hGet.symm.trans hGet'
    have hRead : readPixel d p.addr p.odd = readPixel p.chunk.data p.addr p.odd := by
      rw [hp]
      exact hKeeps n hSprite hx hy
    cases (exec_getPixel_ok hAddr).symm.trans h
    rw [← hRead]
    exact ⟨_, exec_getPixel_ok (p := p.withData d) hStored, rfl, rfl⟩

/-- The word read back is the operand that was written: a colour fits a byte. -/
theorem setWidth_ofNat_toNat {v : Word} (h : v.toNat ≤ 15) : (BitVec.ofNat 8 v.toNat).setWidth 32 = v := by
  apply BitVec.eq_of_toNat_eq
  rw [BitVec.toNat_setWidth, BitVec.toNat_ofNat]
  omega

/-- Two states whose operands address the same nibble of the same byte of a record name the same pixel (R135, R136). -/
theorem operands_eq_of_samePixel {s s' : State} {c : Chunk} {n n' : Nat} (hSprite : spriteOf c (s.arg 1) n)
    (hx : s.arg 2 ≤ 7) (hy : s.arg 3 ≤ 7) (hSprite' : spriteOf c (s'.arg 1) n') (hx' : s'.arg 2 ≤ 7)
    (hy' : s'.arg 3 ≤ 7) (hByte : pixelByte n (s.arg 2) (s.arg 3) = pixelByte n' (s'.arg 2) (s'.arg 3))
    (hNibble : (s.arg 2 % 2 == 1) = (s'.arg 2 % 2 == 1)) : (s.a[1], s.a[2], s.a[3]) = (s'.a[1], s'.a[2], s'.a[3]) := by
  have hParity : s.arg 2 % 2 = s'.arg 2 % 2 := by
    rw [Bool.eq_iff_iff, beq_iff_eq, beq_iff_eq] at hNibble
    omega
  obtain ⟨rfl, hX, hY⟩ := pixelByte_injective hx hy hx' hy' hByte hParity
  rw [show s.a[1] = s'.a[1] from BitVec.eq_of_toNat_eq (hSprite.id_unique hSprite'),
    show s.a[2] = s'.a[2] from BitVec.eq_of_toNat_eq hX, show s.a[3] = s'.a[3] from BitVec.eq_of_toNat_eq hY]

/-- GETPIXEL at the painted pixel answers the colour operand. -/
theorem exec_getPixel_painted {s : State} {c : Chunk} {n : Nat} (hGet : s.ch[s.arg 0]? = some c)
    (hSprite : spriteOf c (s.arg 1) n) (hx : s.arg 2 ≤ 7) (hy : s.arg 3 ≤ 7) (hColor : s.arg 4 ≤ 15) :
    exec .getPixel (s.painted c n) = .next (((s.painted c n).setR 0 s.a[4]).withError 0#8) := by
  have hWord : (BitVec.ofNat 8 (s.arg 4)).setWidth 32 = s.a[4] := setWidth_ofNat_toNat hColor
  have hStored : (s.painted c n).ch[(s.painted c n).arg 0]? = some (c.withData _) := State.getElem?_storing hGet _
  rw [exec_getPixel_legal hStored hSprite hx hy, State.painted_arg, State.painted_arg, Chunk.withData_data,
    readPixel_paintPixel _ _ _ _ _ hColor, if_pos ⟨rfl, rfl⟩, hWord]

/-- GETPIXEL at any other coordinates of the painted record answers what it did before. -/
theorem exec_getPixel_painted_other {s v : State} {c : Chunk} {n : Nat} {b : Vector Word 6}
    (hGet : s.ch[s.arg 0]? = some c) (hSprite : spriteOf c (s.arg 1) n) (hx : s.arg 2 ≤ 7) (hy : s.arg 3 ≤ 7)
    (hColor : s.arg 4 ≤ 15) (hSelector : b[0] = s.a[0]) (hOther : (b[1], b[2], b[3]) ≠ (s.a[1], s.a[2], s.a[3]))
    (h : exec .getPixel { s with a := b } = .next v) :
    ∃ w, exec .getPixel { s.painted c n with a := b } = .next w ∧ w.err = v.err ∧ w.r = v.r := by
  have hArg : ({ s with a := b } : State).arg 0 = s.arg 0 := congrArg BitVec.toNat hSelector
  have hStored := exec_getPixel_storing (s := { s with a := b }) (c := c)
    (d := paintPixel c.data (pixelByte n (s.arg 2) (s.arg 3)) (s.arg 2 % 2 == 1) (s.arg 4)) (by rwa [hArg])
    (fun n' hSprite' hx' hy' => ?_) h
  · rwa [hArg] at hStored
  · rw [readPixel_paintPixel _ _ _ _ _ hColor, if_neg]
    rintro ⟨hByte, hNibble⟩
    exact hOther (operands_eq_of_samePixel hSprite' hx' hy' hSprite hx hy hByte hNibble)

/-- Settles O23: the pixel written, every other pixel of the record, and the addressing. -/
theorem pixelRoundTrip : Obligations.PixelRoundTrip := by
  refine ⟨fun s c n hGet hSprite hx hy hColor => ⟨s.painted c n, _, exec_setPixel_legal hGet hSprite hx hy hColor,
    exec_getPixel_painted hGet hSprite hx hy hColor, rfl, Vector.getElem_set_self _,
    fun b v hSelector hOther hBefore => ?_⟩, fun _ _ _ _ _ _ => pixelByte_injective⟩
  obtain ⟨w, hRead, hErr, hR⟩ := exec_getPixel_painted_other hGet hSprite hx hy hColor hSelector hOther hBefore
  exact ⟨w, hRead, hErr, by rw [hR]⟩

end Sys2Proof.Machine

/-! PROOFS. The Palette codec of 43_palette.md: the checks of SETCOLOR in the order of R153, the payload write of SETCOLOR
as one function with one read-after-write rule, `State.toNat_byteAt_paintColor`, and GETCOLOR on the payload it leaves
(R152, R154). -/

namespace Sys2Proof.Machine

/-! ## The selector of a palette command (R16, R151) -/

theorem accepts_palette_of_notMem (t : BitVec 5) (h : t.toNat ∉ [12]) :
    CodecClass.palette.accepts (variant t) = false := by
  revert t; decide

theorem State.selects_palette {s : State} {c : Chunk} (hGet : s.ch[s.arg 0]? = some c) (hType : c.typeId = 12#5) :
    s.selects .palette c :=
  ⟨hGet, by rw [hType]; rfl⟩

/-- `Select` reads no operand but the selector `A[0]` (R16). -/
theorem State.selects_of_sameSelector {s : State} {cls : CodecClass} {c : Chunk} {b : Vector Word 6}
    (hSelector : b[0] = s.a[0]) (h : s.selects cls c) : ({ s with a := b } : State).selects cls c := by
  have hArg : ({ s with a := b } : State).arg 0 = s.arg 0 := congrArg BitVec.toNat hSelector
  rwa [State.selects, hArg]

/-! ## GETCOLOR (R152) -/

/-- The result registers with one colour of a payload in `R[0..2]` (R152). -/
def colorAnswer (r : Vector Word 4) (d : Bytes) (id : Nat) : Vector Word 4 :=
  #v[BitVec.ofNat 32 (byteAt d (colorByte id 0)).toNat, BitVec.ofNat 32 (byteAt d (colorByte id 1)).toNat,
    BitVec.ofNat 32 (byteAt d (colorByte id 2)).toNat, r[3]]

theorem vector_set_zero_one_two {α : Type} (r : Vector α 4) (x y z : α) :
    ((r.set 0 x).set 1 y).set 2 z = #v[x, y, z, r[3]] := by
  ext i hi
  match i with
  | 0 | 1 | 2 | 3 => simp

section
variable {s : State} {c : Chunk}

theorem State.getColorOperands_badSelector {e : CmdError} (h : s.select .palette = .error e) :
    s.getColorOperands = .error e := by
  rw [State.getColorOperands, h]; rfl

theorem State.getColorOperands_badId (hSel : s.selects .palette c) (hId : 15 < s.arg 1) :
    s.getColorOperands = .error (badArgument 0x01#8 0 15) := by
  simp only [State.getColorOperands, State.select_ok.2 hSel, checkRange_fail (by omega : ¬(0 ≤ s.arg 1 ∧ s.arg 1 ≤ 15)),
    bind, Except.bind]

theorem exec_getColor_error {e : CmdError} (h : s.getColorOperands = .error e) :
    exec .getColor s = .next (s.raise e) := by
  change execGetColor s = _
  rw [execGetColor, h]
  rfl

theorem exec_getColor_badId (hSel : s.selects .palette c) (hId : 15 < s.arg 1) :
    exec .getColor s = .next (s.withInvalid 0x01#8 0 15) :=
  exec_getColor_error (State.getColorOperands_badId hSel hId)

/-- GETCOLOR on legal operands. -/
theorem exec_getColor_legal (hSel : s.selects .palette c) (hId : s.arg 1 ≤ 15) (hSize : 48 ≤ c.data.length) :
    exec .getColor s = .next ({ s with r := colorAnswer s.r c.data (s.arg 1) }.withError 0#8) := by
  change execGetColor s = _
  rw [execGetColor, State.getColorOperands_ok.2 ⟨hSel, hId, hSize⟩, attempt_ok, colorAnswer, ← vector_set_zero_one_two]
  simp only [BitVec.ofNat_toNat]
  rfl

end

/-- Settles O25: the two failing forms after the selector's, and `colorAnswer`. -/
theorem getColorReadsThreeChannels : Obligations.GetColorReadsThreeChannels := by
  refine ⟨rfl, fun s => ⟨failsSelect_of_raises (cls := .palette) accepts_palette_of_notMem fun _ he =>
    exec_getColor_error (State.getColorOperands_badSelector he), fun c hGet hType => ?_⟩⟩
  have hSel := State.selects_palette hGet hType
  exact ⟨exec_getColor_badId hSel, exec_getColor_underSized hSel, exec_getColor_legal hSel⟩

/-! ## The checks of SETCOLOR (R153, R231) -/

/-- A check that fails ends the checks after it. -/
theorem ite_error_bind {α β : Type} (p : Prop) [Decidable p] (e : CmdError) (x : α) (f : α → Except CmdError β) :
    ((if p then .error e else .ok x) >>= f) = if p then .error e else f x :=
  apply_ite (· >>= f) p (.error e) (.ok x)

theorem checkRange_zero (arg : Byte) (v hi : Nat) :
    checkRange arg v 0 hi = if hi < v then .error (badArgument arg 0 hi) else .ok () := by
  simp [checkRange]

/-- The mask bit of a channel, read off the mask as a number (R153). -/
theorem State.channelSupplied_iff (s : State) (j : Nat) :
    s.channelSupplied j = true ↔ s.arg 2 / 2 ^ j % 2 = 1 := by
  rw [State.channelSupplied, ← BitVec.testBit_toNat, Nat.testBit_eq_decide_div_mod_eq, decide_eq_true_eq]
  rfl

theorem State.checkChannel_eq (s : State) (arg : Byte) (j : Nat) (i : Fin 6) :
    s.checkChannel arg j i =
      if s.arg 2 / 2 ^ j % 2 = 1 ∧ 255 < s.arg i then .error (badArgument arg 0 255) else .ok () := by
  rw [State.checkChannel, checkRange_zero, ite_and]
  exact if_congr (s.channelSupplied_iff j) rfl rfl

section
variable {s : State} {c : Chunk}

theorem State.setColorOperands_badSelector {e : CmdError} (h : s.select .palette = .error e) :
    s.setColorOperands = .error e := by
  rw [State.setColorOperands, h]; rfl

/-- SETCOLOR's checks on a palette record, the first one that fails first (R153). -/
theorem State.setColorOperands_of_selects (hSel : s.selects .palette c) :
    s.setColorOperands =
      if 15 < s.arg 1 then .error (badArgument 0x01#8 0 15)
      else if 7 < s.arg 2 then .error (badArgument 0x02#8 0 7)
      else if s.arg 2 / 2 ^ 0 % 2 = 1 ∧ 255 < s.arg 3 then .error (badArgument 0x03#8 0 255)
      else if s.arg 2 / 2 ^ 1 % 2 = 1 ∧ 255 < s.arg 4 then .error (badArgument 0x04#8 0 255)
      else if s.arg 2 / 2 ^ 2 % 2 = 1 ∧ 255 < s.arg 5 then .error (badArgument 0x05#8 0 255)
      else if c.data.length < 48 then .error .underSizedPalettePayload
      else .ok c := by
  rw [State.setColorOperands, State.select_ok.2 hSel]
  simp only [checkRange_zero, State.checkChannel_eq, checkPaletteSize, ite_error_bind]
  rfl

theorem exec_setColor_error {e : CmdError} (h : s.setColorOperands = .error e) :
    exec .setColor s = .next (s.raise e) := by
  change execSetColor s = _
  rw [execSetColor, h]
  rfl

end

/-! ## SETCOLOR (R153) -/

theorem toNat_byteAt_putChannel {d : Bytes} {supplied : Bool} {i v : Nat} (hi : i < d.length)
    (hv : supplied = true → v ≤ 255) (a : Nat) :
    (byteAt (putChannel d supplied i v) a).toNat = if supplied = true ∧ a = i then v else (byteAt d a).toNat := by
  cases supplied with
  | false => simp [putChannel]
  | true =>
    have hByte : (BitVec.ofNat 8 v).toNat = v := Nat.mod_eq_of_lt (Nat.lt_succ_of_le (hv rfl))
    simp only [putChannel, if_true, byteAt_set _ _ _ _ hi, apply_ite BitVec.toNat, hByte, true_and]

/-- The payload SETCOLOR writes: the supplied channels of one colour replaced (R153). -/
def State.paintColor (s : State) (d : Bytes) : Bytes :=
  putChannel (putChannel (putChannel d (s.channelSupplied 0) (colorByte (s.arg 1) 0) (s.arg 3))
    (s.channelSupplied 1) (colorByte (s.arg 1) 1) (s.arg 4)) (s.channelSupplied 2) (colorByte (s.arg 1) 2) (s.arg 5)

@[simp] theorem State.length_paintColor (s : State) (d : Bytes) : (s.paintColor d).length = d.length := by
  simp [State.paintColor]

section
variable {s : State} {c : Chunk}

/-- A supplied channel of the painted colour reads as its operand, every other byte as before (R153, R154). -/
theorem State.toNat_byteAt_paintColor (h : s.setColorOperands = .ok c) (a : Nat) :
    (byteAt (s.paintColor c.data) a).toNat =
      if s.arg 2 % 2 = 1 ∧ a = colorByte (s.arg 1) 0 then s.arg 3
      else if s.arg 2 / 2 % 2 = 1 ∧ a = colorByte (s.arg 1) 1 then s.arg 4
      else if s.arg 2 / 4 % 2 = 1 ∧ a = colorByte (s.arg 1) 2 then s.arg 5
      else (byteAt c.data a).toNat := by
  obtain ⟨-, hId, -, hRed, hGreen, hBlue, hSize⟩ := State.setColorOperands_ok.1 h
  have hInside : ∀ ch ≤ 2, colorByte (s.arg 1) ch < c.data.length := fun ch hCh => by unfold colorByte; omega
  rw [State.paintColor, toNat_byteAt_putChannel (by simpa using hInside 2 le_rfl) hBlue,
    toNat_byteAt_putChannel (by simpa using hInside 1 (by decide)) hGreen,
    toNat_byteAt_putChannel (hInside 0 (by decide)) hRed]
  simp only [State.channelSupplied_iff, colorByte, Nat.pow_zero, Nat.div_one, Nat.pow_one, Nat.reducePow]
  -- The three addresses differ, so the order in which the channels are asked for does not matter.
  grind

/-- No byte outside the colour changes (R154). -/
theorem State.byteAt_paintColor_outside (h : s.setColorOperands = .ok c) {a : Nat}
    (ha : ¬(3 * s.arg 1 ≤ a ∧ a ≤ 3 * s.arg 1 + 2)) : byteAt (s.paintColor c.data) a = byteAt c.data a := by
  have hOther : ∀ ch ≤ 2, a ≠ colorByte (s.arg 1) ch := fun ch hCh => by unfold colorByte; omega
  apply BitVec.eq_of_toNat_eq
  simp [State.toNat_byteAt_paintColor h, hOther]

/-- The state SETCOLOR leaves on legal operands: one colour painted, no error. -/
def State.colored (s : State) (c : Chunk) : State :=
  (s.storing (s.arg 0) c (s.paintColor c.data)).withError 0#8

theorem exec_setColor_ok (h : s.setColorOperands = .ok c) : exec .setColor s = .next (s.colored c) := by
  obtain ⟨⟨hGet, -⟩, -⟩ := State.setColorOperands_ok.1 h
  change execSetColor s = _
  rw [execSetColor, h, attempt_ok]
  exact congrArg (fun t : State => Host.Outcome.next t.complete) (State.setData_eq_storing hGet _)

end

/-- Settles O24: each failing form is a branch of `State.setColorOperands_of_selects`; the write is
`State.paintColor`. -/
theorem setColorWritesTheSuppliedChannels : Obligations.SetColorWritesTheSuppliedChannels := by
  refine ⟨rfl, fun _ _ => rfl, fun s => ⟨failsSelect_of_raises (cls := .palette) accepts_palette_of_notMem fun _ he =>
    exec_setColor_error (State.setColorOperands_badSelector he), fun c hGet hType => ?_⟩⟩
  have hChecks := State.setColorOperands_of_selects (State.selects_palette hGet hType)
  refine ⟨fun hId => ?badId, fun hId hMask => ?badMask, fun hId hMask hRed hBad => ?badRed,
    fun hId hMask hRed hGreen hBad => ?badGreen, fun hId hMask hRed hGreen hBlue hBad => ?badBlue,
    fun hId hMask hRed hGreen hBlue => ⟨fun hSize => ?underSized, fun hSize => ?legal⟩⟩
  case badId => exact exec_setColor_error (hChecks.trans (if_pos hId))
  case badMask => exact exec_setColor_error (by rw [hChecks, if_neg (by omega), if_pos hMask])
  case badRed => exact exec_setColor_error (by rw [hChecks, if_neg (by omega), if_neg (by omega), if_pos (by omega)])
  case badGreen =>
    exact exec_setColor_error (by
      rw [hChecks, if_neg (by omega), if_neg (by omega), if_neg (by omega), if_pos (by omega)])
  case badBlue =>
    exact exec_setColor_error (by
      rw [hChecks, if_neg (by omega), if_neg (by omega), if_neg (by omega), if_neg (by omega), if_pos (by omega)])
  case underSized =>
    exact exec_setColor_error (by
      rw [hChecks, if_neg (by omega), if_neg (by omega), if_neg (by omega), if_neg (by omega), if_neg (by omega),
        if_pos hSize])
  case legal =>
    rw [if_neg (by omega), if_neg (by omega), if_neg (by omega), if_neg (by omega), if_neg (by omega),
      if_neg (by omega)] at hChecks
    exact ⟨_, exec_setColor_ok hChecks, s.length_paintColor _, State.toNat_byteAt_paintColor hChecks⟩

/-! ## A colour written is read back (R154) -/

section
variable {s : State} {c : Chunk}

theorem State.getElem?_colored (hGet : s.ch[s.arg 0]? = some c) :
    (s.colored c).ch[s.arg 0]? = some (c.withData (s.paintColor c.data)) :=
  State.getElem?_storing hGet _

theorem State.selects_colored (hSel : s.selects .palette c) :
    (s.colored c).selects .palette (c.withData (s.paintColor c.data)) :=
  ⟨State.getElem?_colored hSel.1, hSel.2⟩

/-- SETCOLOR writes inside its colour's three bytes of its own record (R154). -/
theorem State.payByte_colored (h : s.setColorOperands = .ok c) {k a : Nat}
    (hOther : ¬(k = s.arg 0 ∧ 3 * s.arg 1 ≤ a ∧ a ≤ 3 * s.arg 1 + 2)) :
    (s.colored c).payByte k a = s.payByte k a := by
  obtain ⟨⟨hGet, -⟩, -⟩ := State.setColorOperands_ok.1 h
  by_cases hk : k = s.arg 0
  · subst hk
    rw [State.payByte, State.payload, State.getElem?_colored hGet, State.payByte, State.payload, hGet]
    exact State.byteAt_paintColor_outside h fun ha => hOther ⟨rfl, ha⟩
  · have hSame : (s.colored c).ch[k]? = s.ch[k]? := List.getElem?_set_ne (Ne.symm hk)
    rw [State.payByte, State.payload, hSame]
    rfl

/-- A colour painted whole reads back as the three operands. -/
theorem State.colorAnswer_paintColor (h : s.setColorOperands = .ok c) (hMask : s.arg 2 = 7) (r : Vector Word 4) :
    colorAnswer r (s.paintColor c.data) (s.arg 1) = #v[s.a[3], s.a[4], s.a[5], r[3]] := by
  have hWord : ∀ i : Fin 6, BitVec.ofNat 32 (s.arg i) = s.a[i] := fun i =>
    (BitVec.ofNat_toNat 32 s.a[i]).trans (BitVec.setWidth_eq _)
  simp [colorAnswer, State.toNat_byteAt_paintColor h, hMask, colorByte, hWord]

theorem colorAnswer_congr {r : Vector Word 4} {d d' : Bytes} {id : Nat}
    (h : ∀ ch ≤ 2, byteAt d (colorByte id ch) = byteAt d' (colorByte id ch)) :
    colorAnswer r d id = colorAnswer r d' id := by
  rw [colorAnswer, h 0 (by decide), h 1 (by decide), h 2 le_rfl]
  rfl

/-- GETCOLOR of any other colour of the painted record answers what it did before. -/
theorem exec_getColor_colored_other {v : State} {b : Vector Word 6} (h : s.setColorOperands = .ok c)
    (hSelector : b[0] = s.a[0]) (hOther : b[1] ≠ s.a[1]) (hBefore : exec .getColor { s with a := b } = .next v) :
    ∃ w, exec .getColor { s.colored c with a := b } = .next w ∧ w.err = v.err ∧ w.r = v.r := by
  obtain ⟨hSel, -, -, -, -, -, hSize⟩ := State.setColorOperands_ok.1 h
  have hBeforeSel := State.selects_of_sameSelector hSelector hSel
  have hAfterSel := State.selects_of_sameSelector (s := s.colored c) hSelector (State.selects_colored hSel)
  have hNe : b[1].toNat ≠ s.arg 1 := fun he => hOther (BitVec.eq_of_toNat_eq he)
  obtain hId | hId := Nat.lt_or_ge 15 b[1].toNat
  · cases (exec_getColor_badId hBeforeSel hId).symm.trans hBefore
    exact ⟨_, exec_getColor_badId hAfterSel hId, rfl, rfl⟩
  · cases (exec_getColor_legal hBeforeSel hId hSize).symm.trans hBefore
    refine ⟨_, exec_getColor_legal hAfterSel hId (by simpa using hSize), rfl, colorAnswer_congr fun ch hCh => ?_⟩
    refine State.byteAt_paintColor_outside h ?_
    change ¬(3 * s.arg 1 ≤ 3 * b[1].toNat + ch ∧ 3 * b[1].toNat + ch ≤ 3 * s.arg 1 + 2)
    omega

end

/-- Settles O26: the colour written, every other byte, and every other colour of the record. -/
theorem colorRoundTrip : Obligations.ColorRoundTrip := by
  intro s c hGet hType hSize hId hMask hRed hGreen hBlue
  have hSel := State.selects_palette hGet hType
  have h : s.setColorOperands = .ok c := State.setColorOperands_ok.2
    ⟨hSel, hId, by omega, fun _ => hRed, fun _ => hGreen, fun _ => hBlue, hSize⟩
  have hRead : exec .getColor (s.colored c) =
      .next ({ s.colored c with r := #v[s.a[3], s.a[4], s.a[5], s.r[3]] }.withError 0#8) := by
    rw [← State.colorAnswer_paintColor h hMask]
    exact exec_getColor_legal (State.selects_colored hSel) hId (by simpa using hSize)
  exact ⟨_, _, exec_setColor_ok h, hRead, rfl, rfl, rfl, rfl, fun _ _ => State.payByte_colored h,
    fun _ _ => exec_getColor_colored_other h⟩

end Sys2Proof.Machine

/-! PROOFS. The Map codec of 44_map.md: the checks of GETTILE and SETTILE in the order of R161 and R162, the cell write
of SETTILE as one function with one read-after-write rule, `readTile_writeTile`, and GETTILE on the payload it leaves
(R163). -/

namespace Sys2Proof.Machine

/-! ## The selector of a map command (R16, R160) -/

theorem accepts_map_of_notMem (t : BitVec 5) (h : t.toNat ∉ [4]) : CodecClass.map.accepts (variant t) = false := by
  revert t; decide

theorem State.selects_map {s : State} {c : Chunk} (hGet : s.ch[s.arg 0]? = some c) (hType : c.typeId = 4#5) :
    s.selects .map c :=
  ⟨hGet, by rw [hType]; rfl⟩

/-! ## Cells of a payload (R160, R163) -/

/-- The addressing of R160 is injective: `x` is the remainder of the byte address by 240 and `y` the quotient. -/
theorem mapByte_injective {x y x' y' : Nat} (hx : x ≤ 239) (hx' : x' ≤ 239) (h : mapByte x y = mapByte x' y') :
    x = x' ∧ y = y' := by
  simp only [mapByte, Config.mapWidth] at h
  omega

/-- The tile id of a cell of a payload (R162). -/
def readTile (d : Bytes) (x y : Nat) : Byte := byteAt d (mapByte x y)

/-- The payload with one cell overwritten, grown up to it (R161). -/
def writeTile (d : Bytes) (x y tile : Nat) : Bytes := growSet d (mapByte x y) (BitVec.ofNat 8 tile)

theorem length_writeTile (d : Bytes) (x y tile : Nat) :
    (writeTile d x y tile).length = max d.length (mapByte x y + 1) :=
  length_growSet d _ _

theorem byteAt_writeTile (d : Bytes) (x y tile a : Nat) :
    byteAt (writeTile d x y tile) a = if a = mapByte x y then BitVec.ofNat 8 tile else byteAt d a :=
  byteAt_growSet d _ a _

/-- A written cell reads as its tile, every other cell as before (R163). -/
theorem readTile_writeTile (d : Bytes) {x y x' y' : Nat} (tile : Nat) (hx : x ≤ 239) (hx' : x' ≤ 239) :
    readTile (writeTile d x y tile) x' y' = if x' = x ∧ y' = y then BitVec.ofNat 8 tile else readTile d x' y' := by
  have hCell : mapByte x' y' = mapByte x y ↔ x' = x ∧ y' = y :=
    ⟨mapByte_injective hx' hx, fun ⟨hX, hY⟩ => by rw [hX, hY]⟩
  rw [readTile, byteAt_writeTile, if_congr hCell rfl rfl, readTile]

theorem readTile_beyond {d : Bytes} {x y : Nat} (h : d.length ≤ mapByte x y) : readTile d x y = 0#8 :=
  byteAt_eq_zero h

/-- The word GETTILE answers: 0 beyond the payload, else the cell's byte (R162). -/
theorem setWidth_readTile (d : Bytes) (x y : Nat) :
    (readTile d x y).setWidth 32 =
      BitVec.ofNat 32 (if d.length ≤ mapByte x y then 0 else (byteAt d (mapByte x y)).toNat) := by
  split
  next hBeyond => rw [readTile_beyond hBeyond]; rfl
  next => exact (BitVec.ofNat_toNat 32 _).symm

/-- A byte operand read back as a word is the operand. -/
theorem setWidth_ofNat_toNat_of_le_byte {v : Word} (h : v.toNat ≤ 255) :
    (BitVec.ofNat 8 v.toNat).setWidth 32 = v := by
  apply BitVec.eq_of_toNat_eq
  rw [BitVec.toNat_setWidth, BitVec.toNat_ofNat]
  omega

/-! ## The checks of a map command (R161, R162, R231) -/

section
variable {s : State} {c : Chunk}

theorem State.getTileOperands_badSelector {e : CmdError} (h : s.select .map = .error e) :
    s.getTileOperands = .error e := by
  rw [State.getTileOperands, h]; rfl

/-- GETTILE's checks on a map record, the first one that fails first (R162). -/
theorem State.getTileOperands_of_selects (hSel : s.selects .map c) :
    s.getTileOperands =
      if 239 < s.arg 1 then .error (badArgument 0x01#8 0 239)
      else if 239 < s.arg 2 then .error (badArgument 0x02#8 0 239)
      else .ok c := by
  rw [State.getTileOperands, State.select_ok.2 hSel]
  simp only [checkRange_zero, ite_error_bind]
  rfl

theorem State.getTileOperands_badX (hSel : s.selects .map c) (hx : 239 < s.arg 1) :
    s.getTileOperands = .error (badArgument 0x01#8 0 239) := by
  rw [State.getTileOperands_of_selects hSel, if_pos hx]

theorem State.getTileOperands_badY (hSel : s.selects .map c) (hx : s.arg 1 ≤ 239) (hy : 239 < s.arg 2) :
    s.getTileOperands = .error (badArgument 0x02#8 0 239) := by
  rw [State.getTileOperands_of_selects hSel, if_neg (Nat.not_lt.2 hx), if_pos hy]

theorem State.setTileOperands_error {e : CmdError} (h : s.getTileOperands = .error e) :
    s.setTileOperands = .error e := by
  rw [State.setTileOperands, h]; rfl

theorem State.setTileOperands_badTile (h : s.getTileOperands = .ok c) (hTile : 255 < s.arg 3) :
    s.setTileOperands = .error (badArgument 0x03#8 0 255) := by
  rw [State.setTileOperands, h, checkRange_fail (by omega)]; rfl

/-- The checks look at a record's type id and not at its payload. -/
theorem State.getTileOperands_storing (hGet : s.ch[s.arg 0]? = some c) (d : Bytes) :
    (s.storing (s.arg 0) c d).getTileOperands = Chunk.withData d <$> s.getTileOperands := by
  simp only [State.getTileOperands, State.select_storing hGet, bind_map_left, map_bind, map_pure]
  rfl

/-! ## GETTILE (R162) -/

theorem exec_getTile_error {e : CmdError} (h : s.getTileOperands = .error e) :
    exec .getTile s = .next (s.raise e) := by
  change execGetTile s = _
  rw [execGetTile, h]
  rfl

theorem exec_getTile_ok (h : s.getTileOperands = .ok c) :
    exec .getTile s = .next ((s.setR 0 ((readTile c.data (s.arg 1) (s.arg 2)).setWidth 32)).withError 0#8) := by
  change execGetTile s = _
  rw [execGetTile, h]
  rfl

end

/-- Settles O28: the failing forms are `State.getTileOperands`'s; the answer is `readTile`. -/
theorem getTileReadsOneCell : Obligations.GetTileReadsOneCell := by
  refine ⟨rfl, fun s => ⟨failsSelect_of_raises (cls := .map) accepts_map_of_notMem fun _ he =>
    exec_getTile_error (State.getTileOperands_badSelector he), fun c hGet hType => ?_⟩⟩
  have hSel := State.selects_map hGet hType
  refine ⟨fun hx => exec_getTile_error (State.getTileOperands_badX hSel hx),
    fun hx hy => exec_getTile_error (State.getTileOperands_badY hSel hx hy), fun hx hy => ?_⟩
  rw [exec_getTile_ok (State.getTileOperands_ok.2 ⟨hSel, hx, hy⟩), setWidth_readTile]
  rfl

/-! ## SETTILE (R161) -/

section
variable {s : State} {c : Chunk}

theorem exec_setTile_error {e : CmdError} (h : s.setTileOperands = .error e) :
    exec .setTile s = .next (s.raise e) := by
  change execSetTile s = _
  rw [execSetTile, h]
  rfl

/-- The state SETTILE leaves on legal operands: one cell written, no error. -/
def State.tiled (s : State) (c : Chunk) : State :=
  (s.storing (s.arg 0) c (writeTile c.data (s.arg 1) (s.arg 2) (s.arg 3))).withError 0#8

@[simp] theorem State.tiled_arg (s : State) (c : Chunk) (i : Fin 6) : (s.tiled c).arg i = s.arg i := rfl

theorem exec_setTile_ok (h : s.setTileOperands = .ok c) : exec .setTile s = .next (s.tiled c) := by
  obtain ⟨hCell, -⟩ := State.setTileOperands_ok.1 h
  obtain ⟨⟨hGet, -⟩, -⟩ := State.getTileOperands_ok.1 hCell
  change execSetTile s = _
  rw [execSetTile, h, attempt_ok, State.setData_eq_storing hGet]
  rfl

end

/-- Settles O27: the failing forms are `State.getTileOperands`'s and the tile id's; the write is `writeTile`. -/
theorem setTileWritesOneCell : Obligations.SetTileWritesOneCell := by
  refine ⟨rfl, fun _ _ => rfl, fun s => ⟨failsSelect_of_raises (cls := .map) accepts_map_of_notMem fun _ he =>
    exec_setTile_error (State.setTileOperands_error (State.getTileOperands_badSelector he)), fun c hGet hType => ?_⟩⟩
  have hSel := State.selects_map hGet hType
  have hCell (hx : s.arg 1 ≤ 239) (hy : s.arg 2 ≤ 239) : s.getTileOperands = .ok c :=
    State.getTileOperands_ok.2 ⟨hSel, hx, hy⟩
  refine ⟨fun hx => exec_setTile_error (State.setTileOperands_error (State.getTileOperands_badX hSel hx)),
    fun hx hy => exec_setTile_error (State.setTileOperands_error (State.getTileOperands_badY hSel hx hy)),
    fun hx hy hTile => exec_setTile_error (State.setTileOperands_badTile (hCell hx hy) hTile),
    fun hx hy hTile => ⟨_, exec_setTile_ok (State.setTileOperands_ok.2 ⟨hCell hx hy, hTile⟩),
      length_writeTile _ _ _ _, fun a => ?_⟩⟩
  have hByte : (BitVec.ofNat 8 (s.arg 3)).toNat = s.arg 3 := Nat.mod_eq_of_lt (Nat.lt_succ_of_le hTile)
  rw [byteAt_writeTile, apply_ite BitVec.toNat, hByte]

/-! ## A tile written is read back (R163) -/

/-- A command that answers one word of the record its checks yield answers alike on two states with the same results,
where the checks pass alike and the two records answer the same. -/
theorem attempt_answersWord_congr {s s' v : State} {checks checks' : Except CmdError Chunk} {answer : Chunk → Word}
    {g : Chunk → Chunk} (hChecks : checks' = g <$> checks) (hR : s'.r = s.r)
    (hAnswer : ∀ c, checks = .ok c → answer (g c) = answer c)
    (h : attempt s checks (fun c => .next (s.setR 0 (answer c)).complete) = .next v) :
    ∃ w, attempt s' checks' (fun c => .next (s'.setR 0 (answer c)).complete) = .next w ∧ w.err = v.err ∧
      w.r = v.r := by
  subst hChecks
  cases checks with
  | error e =>
    cases h
    exact ⟨_, rfl, rfl, hR⟩
  | ok c =>
    cases h
    refine ⟨_, rfl, rfl, ?_⟩
    simp [hAnswer c rfl, hR]

/-- GETTILE after a payload write that keeps the cell it addresses: the same error, or the same tile. -/
theorem exec_getTile_storing {s v : State} {c : Chunk} {d : Bytes} (hGet : s.ch[s.arg 0]? = some c)
    (hKeeps : s.arg 1 ≤ 239 → readTile d (s.arg 1) (s.arg 2) = readTile c.data (s.arg 1) (s.arg 2))
    (h : exec .getTile s = .next v) :
    ∃ w, exec .getTile ((s.storing (s.arg 0) c d).withError 0#8) = .next w ∧ w.err = v.err ∧ w.r = v.r := by
  refine attempt_answersWord_congr (s := s) (s' := (s.storing (s.arg 0) c d).withError 0#8)
    (answer := fun e => (readTile e.data (s.arg 1) (s.arg 2)).setWidth 32)
    (State.getTileOperands_storing hGet d) rfl (fun e he => ?_) h
  obtain ⟨⟨hGet', -⟩, hx, -⟩ := State.getTileOperands_ok.1 he
  cases hGet.symm.trans hGet'
  exact congrArg (BitVec.setWidth 32) (hKeeps hx)

section
variable {s : State} {c : Chunk}

/-- GETTILE at the written cell answers the tile operand. -/
theorem exec_getTile_tiled (h : s.setTileOperands = .ok c) :
    exec .getTile (s.tiled c) = .next (((s.tiled c).setR 0 s.a[3]).withError 0#8) := by
  obtain ⟨hCell, hTile⟩ := State.setTileOperands_ok.1 h
  obtain ⟨⟨hGet, -⟩, hx, -⟩ := State.getTileOperands_ok.1 hCell
  have hStored : (s.tiled c).getTileOperands = .ok (c.withData _) :=
    (State.getTileOperands_storing hGet _).trans (congrArg (Chunk.withData _ <$> ·) hCell)
  have hWord : (BitVec.ofNat 8 (s.arg 3)).setWidth 32 = s.a[3] := setWidth_ofNat_toNat_of_le_byte hTile
  rw [exec_getTile_ok hStored, State.tiled_arg, State.tiled_arg, Chunk.withData_data, readTile_writeTile _ _ hx hx,
    if_pos ⟨rfl, rfl⟩, hWord]

/-- GETTILE at any other coordinates of the written record answers what it did before. -/
theorem exec_getTile_tiled_other {v : State} {b : Vector Word 6} (h : s.setTileOperands = .ok c)
    (hSelector : b[0] = s.a[0]) (hOther : (b[1], b[2]) ≠ (s.a[1], s.a[2]))
    (hBefore : exec .getTile { s with a := b } = .next v) :
    ∃ w, exec .getTile { s.tiled c with a := b } = .next w ∧ w.err = v.err ∧ w.r = v.r := by
  obtain ⟨hCell, -⟩ := State.setTileOperands_ok.1 h
  obtain ⟨⟨hGet, -⟩, hx, -⟩ := State.getTileOperands_ok.1 hCell
  have hArg : ({ s with a := b } : State).arg 0 = s.arg 0 := congrArg BitVec.toNat hSelector
  have hStored := exec_getTile_storing (s := { s with a := b }) (c := c)
    (d := writeTile c.data (s.arg 1) (s.arg 2) (s.arg 3)) (by rwa [hArg]) (fun hx' => ?_) hBefore
  · rwa [hArg] at hStored
  · rw [readTile_writeTile _ _ hx hx', if_neg]
    rintro ⟨hX, hY⟩
    exact hOther (Prod.ext (BitVec.eq_of_toNat_eq hX) (BitVec.eq_of_toNat_eq hY))

end

/-- Settles O29: the cell written, every other cell of the record, a cell beyond the payload, and the addressing. -/
theorem tileRoundTrip : Obligations.TileRoundTrip := by
  refine ⟨fun s c hGet hType hx hy hTile => ?roundTrip, fun s c hGet hType hx hy hBeyond => ?beyond,
    fun _ _ _ _ => mapByte_injective⟩
  case roundTrip =>
    have h : s.setTileOperands = .ok c := State.setTileOperands_ok.2
      ⟨State.getTileOperands_ok.2 ⟨State.selects_map hGet hType, hx, hy⟩, hTile⟩
    exact ⟨s.tiled c, _, exec_setTile_ok h, exec_getTile_tiled h, rfl, Vector.getElem_set_self _,
      fun _ _ => exec_getTile_tiled_other h⟩
  case beyond =>
    rw [exec_getTile_ok (State.getTileOperands_ok.2 ⟨State.selects_map hGet hType, hx, hy⟩), readTile_beyond hBeyond]
    rfl

end Sys2Proof.Machine

/-! PROOFS. The Flags codec of 45_flags.md: the byte `packFlags` makes of a boolean sequence (R171), the checks of
GETFLAGS and SETFLAGS in their order (R171, R172), and GETFLAGS on the payload SETFLAGS leaves (R173). -/

namespace Sys2Proof.Machine

/-! ## The selector of a flags command (R16) -/

theorem accepts_flags_of_notMem (t : BitVec 5) (h : t.toNat ∉ [6]) : CodecClass.flags.accepts (variant t) = false := by
  revert t; decide

theorem State.selects_flags {s : State} {c : Chunk} (hGet : s.ch[s.arg 0]? = some c) (hType : c.typeId = 6#5) :
    s.selects .flags c :=
  ⟨hGet, by rw [hType]; rfl⟩

/-! ## The flags byte (R170, R171) -/

/-- The stored byte is the supplied bits modulo `2 ^ count`: at most eight of them fit it whole. -/
theorem toNat_packFlags {bits count : Nat} (h : count ≤ 8) : (packFlags bits count).toNat = bits % 2 ^ count := by
  have hFits : bits % 2 ^ count < 2 ^ 8 :=
    (Nat.mod_lt _ (Nat.two_pow_pos count)).trans_le (Nat.pow_le_pow_right (by decide) h)
  rw [packFlags, Nat.one_shiftLeft, Nat.and_two_pow_sub_one_eq_mod, BitVec.toNat_ofNat, Nat.mod_eq_of_lt hFits]

/-- The flags of the stored byte, as the word GETFLAGS answers: the supplied ones, and false from `count` on (R173). -/
theorem getLsbD_setWidth_packFlags {v : Word} {count : Nat} (h : count ≤ 8) (n : Nat) :
    ((packFlags v.toNat count).setWidth 32).getLsbD n = (decide (n < count) && v.getLsbD n) := by
  rw [← BitVec.testBit_toNat, BitVec.toNat_setWidth_of_le (by decide), toNat_packFlags h, Nat.testBit_mod_two_pow,
    BitVec.testBit_toNat]

/-- A growth-tolerant read as a result word: 0 beyond the payload, else the byte (R172). -/
theorem setWidth_byteAt (d : Bytes) (a : Nat) :
    (byteAt d a).setWidth 32 = BitVec.ofNat 32 (if d.length ≤ a then 0 else (byteAt d a).toNat) := by
  split
  next hBeyond => rw [byteAt_eq_zero hBeyond]; rfl
  next => exact (BitVec.ofNat_toNat 32 _).symm

/-! ## The checks of a flags command (R171, R172, R231) -/

section
variable {s : State} {c : Chunk}

theorem State.getFlagsOperands_badSelector {e : CmdError} (h : s.select .flags = .error e) :
    s.getFlagsOperands = .error e := by
  rw [State.getFlagsOperands, h]; rfl

theorem State.getFlagsOperands_badSprite (hSel : s.selects .flags c) (hSprite : 511 < s.arg 1) :
    s.getFlagsOperands = .error (badArgument 0x01#8 0 511) := by
  rw [State.getFlagsOperands, State.select_ok.2 hSel, checkRange_fail (by omega)]; rfl

theorem State.setFlagsOperands_error {e : CmdError} (h : s.getFlagsOperands = .error e) :
    s.setFlagsOperands = .error e := by
  rw [State.setFlagsOperands, h]; rfl

theorem State.setFlagsOperands_badCount (h : s.getFlagsOperands = .ok c) (hCount : 8 < s.arg 2) :
    s.setFlagsOperands = .error (badArgument 0x02#8 0 8) := by
  rw [State.setFlagsOperands, h, checkRange_fail (by omega)]; rfl

/-- The checks look at a record's type id and not at its payload. -/
theorem State.getFlagsOperands_storing (hGet : s.ch[s.arg 0]? = some c) (d : Bytes) :
    (s.storing (s.arg 0) c d).getFlagsOperands = Chunk.withData d <$> s.getFlagsOperands := by
  simp only [State.getFlagsOperands, State.select_storing hGet, bind_map_left, map_bind, map_pure]
  rfl

/-! ## GETFLAGS (R172) -/

theorem exec_getFlags_error {e : CmdError} (h : s.getFlagsOperands = .error e) :
    exec .getFlags s = .next (s.raise e) := by
  change execGetFlags s = _
  rw [execGetFlags, h, attempt_error]

theorem exec_getFlags_ok (h : s.getFlagsOperands = .ok c) :
    exec .getFlags s = .next ((s.setR 0 ((byteAt c.data (s.arg 1)).setWidth 32)).withError 0#8) := by
  change execGetFlags s = _
  rw [execGetFlags, h]
  rfl

end

/-- Settles O31: the failing forms are `State.getFlagsOperands`'s; the answer is the sprite's byte. -/
theorem getFlagsReadsOneByte : Obligations.GetFlagsReadsOneByte := by
  refine ⟨rfl, fun s => ⟨failsSelect_of_raises (cls := .flags) accepts_flags_of_notMem fun _ he =>
    exec_getFlags_error (State.getFlagsOperands_badSelector he), fun c hGet hType => ?_⟩⟩
  have hSel := State.selects_flags hGet hType
  refine ⟨fun hSprite => exec_getFlags_error (State.getFlagsOperands_badSprite hSel hSprite), fun hSprite => ?_⟩
  rw [exec_getFlags_ok (State.getFlagsOperands_ok.2 ⟨hSel, hSprite⟩), setWidth_byteAt]
  rfl

/-! ## SETFLAGS (R171) -/

/-- The payload SETFLAGS leaves: the sprite's byte overwritten, grown up to it (R171). -/
def State.writeFlags (s : State) (d : Bytes) : Bytes := growSet d (s.arg 1) (packFlags (s.arg 3) (s.arg 2))

theorem State.length_writeFlags (s : State) (d : Bytes) : (s.writeFlags d).length = max d.length (s.arg 1 + 1) :=
  length_growSet d _ _

theorem State.byteAt_writeFlags (s : State) (d : Bytes) (a : Nat) :
    byteAt (s.writeFlags d) a = if a = s.arg 1 then packFlags (s.arg 3) (s.arg 2) else byteAt d a :=
  byteAt_growSet d _ a _

/-- The state SETFLAGS leaves on legal operands: one byte written, no error. -/
def State.flagged (s : State) (c : Chunk) : State :=
  (s.storing (s.arg 0) c (s.writeFlags c.data)).withError 0#8

section
variable {s : State} {c : Chunk}

theorem exec_setFlags_error {e : CmdError} (h : s.setFlagsOperands = .error e) :
    exec .setFlags s = .next (s.raise e) := by
  change execSetFlags s = _
  rw [execSetFlags, h, attempt_error]

theorem exec_setFlags_ok (h : s.setFlagsOperands = .ok c) : exec .setFlags s = .next (s.flagged c) := by
  obtain ⟨hSprite, -⟩ := State.setFlagsOperands_ok.1 h
  obtain ⟨⟨hGet, -⟩, -⟩ := State.getFlagsOperands_ok.1 hSprite
  change execSetFlags s = _
  rw [execSetFlags, h, attempt_ok, State.setData_eq_storing hGet]
  rfl

end

/-- Settles O30: the failing forms are `State.getFlagsOperands`'s and the count's; the write is `State.writeFlags`. -/
theorem setFlagsWritesOneByte : Obligations.SetFlagsWritesOneByte := by
  refine ⟨rfl, fun s => ⟨failsSelect_of_raises (cls := .flags) accepts_flags_of_notMem fun _ he =>
    exec_setFlags_error (State.setFlagsOperands_error (State.getFlagsOperands_badSelector he)),
    fun c hGet hType => ?_⟩⟩
  have hSel := State.selects_flags hGet hType
  have hPass (hSprite : s.arg 1 ≤ 511) : s.getFlagsOperands = .ok c := State.getFlagsOperands_ok.2 ⟨hSel, hSprite⟩
  refine ⟨fun hSprite =>
      exec_setFlags_error (State.setFlagsOperands_error (State.getFlagsOperands_badSprite hSel hSprite)),
    fun hSprite hCount => exec_setFlags_error (State.setFlagsOperands_badCount (hPass hSprite) hCount),
    fun hSprite hCount => ⟨_, exec_setFlags_ok (State.setFlagsOperands_ok.2 ⟨hPass hSprite, hCount⟩),
      s.length_writeFlags _, fun a => ?_⟩⟩
  rw [State.byteAt_writeFlags, apply_ite BitVec.toNat, toNat_packFlags hCount]

/-! ## Flags written are read back (R173) -/

/-- GETFLAGS after a payload write that keeps the byte it reads: the same error, or the same flags. -/
theorem exec_getFlags_storing {s v : State} {c : Chunk} {d : Bytes} (hGet : s.ch[s.arg 0]? = some c)
    (hKeeps : byteAt d (s.arg 1) = byteAt c.data (s.arg 1)) (h : exec .getFlags s = .next v) :
    ∃ w, exec .getFlags ((s.storing (s.arg 0) c d).withError 0#8) = .next w ∧ w.err = v.err ∧ w.r = v.r := by
  refine attempt_answersWord_congr (s := s) (s' := (s.storing (s.arg 0) c d).withError 0#8)
    (answer := fun e => (byteAt e.data (s.arg 1)).setWidth 32)
    (State.getFlagsOperands_storing hGet d) rfl (fun e he => ?_) h
  obtain ⟨⟨hGet', -⟩, -⟩ := State.getFlagsOperands_ok.1 he
  cases hGet.symm.trans hGet'
  exact congrArg (BitVec.setWidth 32) hKeeps

section
variable {s : State} {c : Chunk}

/-- GETFLAGS of the written sprite answers the packed flags. -/
theorem exec_getFlags_flagged (h : s.setFlagsOperands = .ok c) :
    exec .getFlags (s.flagged c) =
      .next (((s.flagged c).setR 0 ((packFlags (s.arg 3) (s.arg 2)).setWidth 32)).withError 0#8) := by
  obtain ⟨hSprite, -⟩ := State.setFlagsOperands_ok.1 h
  obtain ⟨⟨hGet, -⟩, -⟩ := State.getFlagsOperands_ok.1 hSprite
  have hStored : (s.flagged c).getFlagsOperands = .ok (c.withData (s.writeFlags c.data)) :=
    (State.getFlagsOperands_storing hGet _).trans (congrArg (Chunk.withData _ <$> ·) hSprite)
  have hByte : byteAt (s.writeFlags c.data) ((s.flagged c).arg 1) = packFlags (s.arg 3) (s.arg 2) :=
    (s.byteAt_writeFlags c.data (s.arg 1)).trans (if_pos rfl)
  rw [exec_getFlags_ok hStored, Chunk.withData_data, hByte]

/-- GETFLAGS of any other sprite of the written record answers what it did before. -/
theorem exec_getFlags_flagged_other {v : State} {b : Vector Word 6} (hGet : s.ch[s.arg 0]? = some c)
    (hSelector : b[0] = s.a[0]) (hOther : b[1] ≠ s.a[1]) (hBefore : exec .getFlags { s with a := b } = .next v) :
    ∃ w, exec .getFlags { s.flagged c with a := b } = .next w ∧ w.err = v.err ∧ w.r = v.r := by
  have hArg : ({ s with a := b } : State).arg 0 = s.arg 0 := congrArg BitVec.toNat hSelector
  have hNe : ({ s with a := b } : State).arg 1 ≠ s.arg 1 := fun he => hOther (BitVec.eq_of_toNat_eq he)
  have hStored := exec_getFlags_storing (s := { s with a := b }) (c := c) (d := s.writeFlags c.data) (by rwa [hArg])
    ((s.byteAt_writeFlags c.data _).trans (if_neg hNe)) hBefore
  rwa [hArg] at hStored

end

/-- Settles O32: the flags written, bit by bit, and every other sprite of the record. -/
theorem flagsRoundTrip : Obligations.FlagsRoundTrip := by
  intro s c hGet hType hSprite hCount
  have h : s.setFlagsOperands = .ok c := State.setFlagsOperands_ok.2
    ⟨State.getFlagsOperands_ok.2 ⟨State.selects_flags hGet hType, hSprite⟩, hCount⟩
  refine ⟨s.flagged c, _, exec_setFlags_ok h, exec_getFlags_flagged h, rfl, fun n => ?_,
    fun _ _ => exec_getFlags_flagged_other hGet⟩
  have hRead : (((s.flagged c).setR 0 ((packFlags (s.arg 3) (s.arg 2)).setWidth 32)).withError 0#8).r[0] =
      (packFlags (s.arg 3) (s.arg 2)).setWidth 32 := Vector.getElem_set_self _
  rw [hRead]
  exact getLsbD_setWidth_packFlags hCount n

end Sys2Proof.Machine

/-! PROOFS. The Code codec of 46_code.md: the lines of a text and the ordered mapping of its headers (R181, R183, R185),
trimming and one header line (R182, R184), the formatted text (R187) and what it parses to (R191), and on these the
commands GETSOURCE, SETBODY and SETHEADERS (R186, R188 to R190). -/

namespace Sys2Proof.Machine

/-! ## Lines (R181, R183) -/

theorem length_textLines (d : Bytes) : (textLines d).length = d.count Config.lf + 1 := by
  induction d with
  | nil => rfl
  | cons b d ih =>
    rw [textLines]
    split
    next hLf => rw [List.length_cons, ih, hLf, List.count_cons_self]
    next hOther =>
      split
      next hNil => exact absurd hNil (textLines_ne_nil d)
      next l ls hLines => rw [List.count_cons_of_ne hOther, ← ih, hLines]; rfl

/-- The first line of a text is how the text begins. -/
theorem prefix_of_textLines_eq_cons {d l : Bytes} {ls : List Bytes} (h : textLines d = l :: ls) : l <+: d := by
  rw [← joinLines_textLines d, h]
  cases ls with
  | nil => exact List.prefix_rfl
  | cons m ls =>
    rw [joinLines_cons (by simp), List.append_assoc]
    exact List.prefix_append _ _

/-- A text that does not begin with two hyphens has no header line in front (R183). -/
theorem takeWhile_dropWhile_isHeaderLine_of_not_prefix {d : Bytes} (h : ¬ [hyphen, hyphen] <+: d) :
    (textLines d).takeWhile isHeaderLine = [] ∧ (textLines d).dropWhile isHeaderLine = textLines d := by
  obtain ⟨l, ls, hLines⟩ := List.exists_cons_of_ne_nil (textLines_ne_nil d)
  have hFirst : ¬ isHeaderLine l = true := fun hHeader =>
    h ((isHeaderLine_iff.1 hHeader).trans (prefix_of_textLines_eq_cons hLines))
  rw [hLines]
  exact ⟨List.takeWhile_cons_of_neg hFirst, List.dropWhile_cons_of_neg hFirst⟩

section
variable {ls : List Bytes}

/-- Header lines in front of a text are parsed before whatever header lines the text itself begins with. -/
theorem parseSource_headerLines (hLf : ∀ l ∈ ls, Config.lf ∉ l) (hHeader : ∀ l ∈ ls, [hyphen, hyphen] <+: l)
    (d : Bytes) :
    parseSource ((ls.flatMap fun l => l ++ [Config.lf]) ++ d) =
      (headerMap ((ls ++ (textLines d).takeWhile isHeaderLine).map parseHeaderLine),
        joinLines ((textLines d).dropWhile isHeaderLine)) := by
  have hAll : ∀ l ∈ ls, isHeaderLine l = true := fun l hl => isHeaderLine_iff.2 (hHeader l hl)
  rw [parseSource, textLines_flatMap hLf, List.takeWhile_append_of_pos hAll, List.dropWhile_append_of_pos hAll]

/-- Header lines, then a text with none in front: the text is the body, verbatim (R185). -/
theorem parseSource_headerLines_body (hLf : ∀ l ∈ ls, Config.lf ∉ l) (hHeader : ∀ l ∈ ls, [hyphen, hyphen] <+: l)
    {body : Bytes} (hBody : ¬ [hyphen, hyphen] <+: body) :
    parseSource ((ls.flatMap fun l => l ++ [Config.lf]) ++ body) = (headerMap (ls.map parseHeaderLine), body) := by
  obtain ⟨hTake, hDrop⟩ := takeWhile_dropWhile_isHeaderLine_of_not_prefix hBody
  rw [parseSource_headerLines hLf hHeader, hTake, hDrop, List.append_nil, joinLines_textLines]

/-- Header lines only, the last one without `LF`: the body is empty (R185). -/
theorem parseSource_headerLines_line (hLf : ∀ l ∈ ls, Config.lf ∉ l) (hHeader : ∀ l ∈ ls, [hyphen, hyphen] <+: l)
    {l : Bytes} (hLineLf : Config.lf ∉ l) (hLine : [hyphen, hyphen] <+: l) :
    parseSource ((ls.flatMap fun x => x ++ [Config.lf]) ++ l) = (headerMap ((ls ++ [l]).map parseHeaderLine), []) := by
  have hOne := isHeaderLine_iff.2 hLine
  rw [parseSource_headerLines hLf hHeader, textLines_line hLineLf, List.takeWhile_cons_of_pos hOne,
    List.dropWhile_cons_of_pos hOne]
  rfl

end

/-! ## The ordered mapping (R185) -/

/-- `Put` on a key the mapping has: its value is replaced in place. -/
theorem putHeader_present {pre : List Header} {k : Bytes} (h : ∀ g ∈ pre, g.1 ≠ k) (post : List Header) (v w : Bytes) :
    putHeader (pre ++ (k, v) :: post) (k, w) = pre ++ (k, w) :: post := by
  induction pre with
  | nil => exact if_pos rfl
  | cons g pre ih =>
    obtain ⟨hg, hPre⟩ := List.forall_mem_cons.1 h
    rw [List.cons_append, putHeader, if_neg hg, ih hPre, List.cons_append]

theorem headerMap_concat (hs : List Header) (h : Header) : headerMap (hs ++ [h]) = putHeader (headerMap hs) h :=
  List.foldl_concat ..

theorem exists_mem_iff_mem_keys {hs : List Header} {k : Bytes} : (∃ v, (k, v) ∈ hs) ↔ k ∈ hs.map (·.1) := by
  simp

theorem mem_keys_headerMap {hs : List Header} {k : Bytes} : k ∈ (headerMap hs).map (·.1) ↔ k ∈ hs.map (·.1) := by
  induction hs using List.reverseRecOn with
  | nil => rfl
  | append_singleton hs h ih =>
    rw [headerMap_concat, mem_keys_putHeader, ih, List.map_append, List.mem_append, List.map_singleton,
      List.mem_singleton, or_comm]

/-- Pairs with distinct keys are their own mapping: every `Put` appends. -/
theorem headerMap_eq_self {hs : List Header} (h : (hs.map (·.1)).Nodup) : headerMap hs = hs := by
  induction hs using List.reverseRecOn with
  | nil => rfl
  | append_singleton hs g ih =>
    rw [List.map_append, List.map_singleton, ← List.concat_eq_append, List.nodup_concat] at h
    obtain ⟨hNew, hDistinct⟩ := h
    rw [headerMap_concat, ih hDistinct]
    exact putHeader_new fun f hf hKey => hNew (List.mem_map.2 ⟨f, hf, hKey⟩)

/-- Settles O33: the lines, the two forms of a text, and the mapping as the fold of `putHeader`. -/
theorem sourceSplitsAtTheFirstOtherLine : Obligations.SourceSplitsAtTheFirstOtherLine := by
  refine ⟨fun d => ⟨joinLines_textLines d, length_textLines d, lf_notMem_textLines d⟩, fun _ => isHeaderLine_iff,
    fun ls body hLines hBody => ?_, fun ls l hLines => ?_, fun _ post _ v w hNew => putHeader_present hNew post v w,
    fun _ _ hNew => putHeader_new hNew, rfl, headerMap_concat, fun hs => ⟨nodup_keys_headerMap hs, fun k => ?_⟩⟩
  · exact parseSource_headerLines_body (fun l hl => (hLines l hl).1) (fun l hl => (hLines l hl).2) hBody
  · obtain ⟨hInit, hLast⟩ := List.forall_mem_append.1 hLines
    obtain ⟨hLineLf, hLine⟩ := hLast l List.mem_cons_self
    exact parseSource_headerLines_line (fun x hx => (hInit x hx).1) (fun x hx => (hInit x hx).2) hLineLf hLine
  · rw [exists_mem_iff_mem_keys, mem_keys_headerMap, exists_mem_iff_mem_keys]

/-! ## `Trim` and `LStripHyphen` (R182) -/

theorem isSpace_iff {b : Byte} : isSpace b = true ↔ b ∈ Config.whiteSpace := decide_eq_true_iff

/-- No white space at either end: what `Trim` leaves, and what R191 asks of a key and of a value. -/
def Trimmed (d : Bytes) : Prop := ∀ b, d.head? = some b ∨ d.getLast? = some b → b ∉ Config.whiteSpace

theorem trim_eq_rdropWhile (d : Bytes) : trim d = (d.dropWhile isSpace).rdropWhile isSpace := rfl

theorem trimmed_trim (d : Bytes) : Trimmed (trim d) := by
  rintro b (hHead | hLast) hSpace
  · obtain ⟨r, hr⟩ : trim d <+: d.dropWhile isSpace := List.rdropWhile_prefix isSpace _
    have hFirst : (d.dropWhile isSpace).head? = some b := by rw [← hr, List.head?_append, hHead]; rfl
    have hNot := List.head?_dropWhile_not isSpace d
    rw [hFirst] at hNot
    exact absurd (isSpace_iff.2 hSpace) (by simp [hNot])
  · obtain ⟨hne, rfl⟩ := List.mem_getLast?_eq_getLast hLast
    exact List.rdropWhile_last_not isSpace _ hne (isSpace_iff.2 hSpace)

/-- What `Trim` removes is white space, from the two ends. -/
theorem exists_eq_append_trim_append (d : Bytes) :
    ∃ l r, d = l ++ trim d ++ r ∧ ∀ b ∈ l ++ r, b ∈ Config.whiteSpace := by
  refine ⟨d.takeWhile isSpace, (d.dropWhile isSpace).rtakeWhile isSpace, ?_, List.forall_mem_append.2 ⟨?_, ?_⟩⟩
  · rw [trim_eq_rdropWhile, List.append_assoc, List.rdropWhile_append_rtakeWhile, List.takeWhile_append_dropWhile]
  · exact fun b hb => isSpace_iff.1 (List.mem_takeWhile_imp hb)
  · exact fun b hb => isSpace_iff.1 (List.mem_rtakeWhile_imp hb)

theorem Trimmed.trim_eq_self {d : Bytes} (h : Trimmed d) : trim d = d := by
  have hFront : d.dropWhile isSpace = d := (List.dropWhile_eq_self_iff).2 fun hLen hSpace =>
    h _ (.inl (List.head?_eq_getElem? ▸ List.getElem?_eq_getElem hLen)) (isSpace_iff.1 hSpace)
  rw [trim_eq_rdropWhile, hFront, List.rdropWhile_eq_self_iff]
  exact fun hne hSpace => h _ (.inr (List.getLast?_eq_some_getLast hne)) (isSpace_iff.1 hSpace)

theorem trim_append_of_whiteSpace {w : Bytes} (h : ∀ b ∈ w, b ∈ Config.whiteSpace) (d : Bytes) :
    trim (w ++ d) = trim d := by
  rw [trim, List.dropWhile_append_of_pos fun b hb => isSpace_iff.2 (h b hb), trim]

theorem head?_stripHyphens_ne (d : Bytes) : (stripHyphens d).head? ≠ some hyphen := by
  intro hHead
  have hNot := List.head?_dropWhile_not (· == hyphen) d
  rw [← stripHyphens, hHead] at hNot
  simp at hNot

/-- What `LStripHyphen` removes is hyphens, from the front. -/
theorem exists_eq_replicate_append_stripHyphens (d : Bytes) : ∃ n, d = List.replicate n hyphen ++ stripHyphens d := by
  have hHyphens : d.takeWhile (· == hyphen) = List.replicate (d.takeWhile (· == hyphen)).length hyphen :=
    List.eq_replicate_iff.2 ⟨rfl, fun b hb => by simpa using List.mem_takeWhile_imp hb⟩
  exact ⟨_, by rw [← hHyphens, stripHyphens, List.takeWhile_append_dropWhile]⟩

/-! ## A header line (R184) -/

section
variable {before : Bytes}

theorem forall_bne_colon (h : colon ∉ before) : ∀ b ∈ before, (b != colon) = true := fun _ hb =>
  bne_iff_ne.2 (ne_of_mem_of_not_mem hb h)

theorem parseHeaderLine_colon (h : colon ∉ before) (rest : Bytes) :
    parseHeaderLine (before ++ colon :: rest) = (trim (stripHyphens before), trim rest) := by
  rw [parseHeaderLine, List.takeWhile_append_of_pos (forall_bne_colon h),
    List.dropWhile_append_of_pos (forall_bne_colon h), List.takeWhile_cons_of_neg (by simp),
    List.dropWhile_cons_of_neg (by simp), List.append_nil]
  rfl

theorem parseHeaderLine_noColon (h : colon ∉ before) : parseHeaderLine before = (trim (stripHyphens before), []) := by
  rw [parseHeaderLine, List.takeWhile_eq_self_iff.2 (forall_bne_colon h),
    List.dropWhile_eq_nil_iff.2 (forall_bne_colon h)]
  rfl

end

/-- Settles O34: what the two strippings remove and leave, and a line split at its first colon. -/
theorem headerLineGivesKeyAndValue : Obligations.HeaderLineGivesKeyAndValue := by
  refine ⟨fun d => ?_, fun d => ?_, fun before rest h => ⟨parseHeaderLine_colon h rest, parseHeaderLine_noColon h⟩⟩
  · obtain ⟨l, r, hSplit, hSpace⟩ := exists_eq_append_trim_append d
    exact ⟨l, r, hSplit, hSpace, trimmed_trim d⟩
  · obtain ⟨n, hSplit⟩ := exists_eq_replicate_append_stripHyphens d
    exact ⟨n, hSplit, head?_stripHyphens_ne d⟩

/-! ## The formatted text (R187) -/

theorem length_key_le_maxKeyLength {hs : List Header} {h : Header} (hMem : h ∈ hs) : h.1.length ≤ maxKeyLength hs := by
  induction hs with
  | nil => cases hMem
  | cons g hs ih =>
    obtain rfl | hRest := List.mem_cons.1 hMem
    · exact Nat.le_max_left _ _
    · exact (ih hRest).trans (Nat.le_max_right _ _)

theorem exists_length_key_eq_maxKeyLength {hs : List Header} (hne : hs ≠ []) :
    ∃ h ∈ hs, h.1.length = maxKeyLength hs := by
  induction hs with
  | nil => exact absurd rfl hne
  | cons g hs ih =>
    obtain hFirst | hRest := Nat.le_total (maxKeyLength hs) g.1.length
    · exact ⟨g, List.mem_cons_self, (Nat.max_eq_left hFirst).symm⟩
    · have hMax : maxKeyLength (g :: hs) = maxKeyLength hs := Nat.max_eq_right hRest
      by_cases hNil : hs = []
      · subst hNil
        exact ⟨g, List.mem_cons_self, hMax ▸ Nat.le_zero.1 hRest⟩
      · obtain ⟨h, hMem, hLen⟩ := ih hNil
        exact ⟨h, List.mem_cons_of_mem g hMem, hMax ▸ hLen⟩

/-- Settles O35: the number in `formatSource` is the greatest key length. -/
theorem formatLaysOutTheHeaders : Obligations.FormatLaysOutTheHeaders := by
  intro hs body
  refine ⟨maxKeyLength hs, fun _ => length_key_le_maxKeyLength, ?_, exists_length_key_eq_maxKeyLength, rfl⟩
  rintro rfl
  rfl

/-! ## A formatted text parses back (R191) -/

theorem formatSource_eq_flatMap_map (hs : List Header) (body : Bytes) :
    formatSource hs body =
      ((hs.map (formatHeader (maxKeyLength hs))).flatMap fun l => l ++ [Config.lf]) ++ body := by
  rw [formatSource, List.flatMap_map]

/-- A formatted header line: hyphens, a space and the key, the colon, then spaces and the value. -/
theorem formatHeader_eq (m : Nat) (h : Header) :
    formatHeader m h =
      ([hyphen, hyphen, space] ++ h.1) ++ colon :: (List.replicate (m - h.1.length + 1) space ++ h.2) := by
  simp [formatHeader, spaces, List.replicate_succ']

theorem hyphens_prefix_formatHeader (m : Nat) (h : Header) : [hyphen, hyphen] <+: formatHeader m h :=
  ⟨_, (formatHeader_eq m h).symm⟩

theorem space_mem_whiteSpace : space ∈ Config.whiteSpace := by decide

/-- "-- " before a key goes: the hyphens first, the space with the white space (R184). -/
theorem trim_stripHyphens_key (k : Bytes) : trim (stripHyphens ([hyphen, hyphen, space] ++ k)) = trim k :=
  trim_append_of_whiteSpace (w := [space]) (List.forall_mem_singleton.2 space_mem_whiteSpace) k

section
variable {h : Header}

theorem headerKeeps.lf_notMem_formatHeader (hKeeps : headerKeeps h) (m : Nat) : Config.lf ∉ formatHeader m h := by
  obtain ⟨-, hKey, -, hValue, -⟩ := hKeeps
  rw [formatHeader_eq]
  simp [hKey, hValue, List.mem_replicate, show Config.lf ≠ hyphen by decide, show Config.lf ≠ colon by decide,
    show Config.lf ≠ space by decide]

/-- The key and the value of a formatted line are the header's own. -/
theorem headerKeeps.parseHeaderLine_formatHeader (hKeeps : headerKeeps h) (m : Nat) :
    parseHeaderLine (formatHeader m h) = h := by
  obtain ⟨hColon, -, -, -, hEnds⟩ := hKeeps
  have hKey : Trimmed h.1 := fun b hb => hEnds b (hb.elim .inl (.inr ∘ .inl))
  have hValue : Trimmed h.2 := fun b hb => hEnds b (.inr (.inr hb))
  have hBefore : colon ∉ [hyphen, hyphen, space] ++ h.1 := by
    simp [hColon, show colon ≠ hyphen by decide, show colon ≠ space by decide]
  have hPadding : ∀ b ∈ List.replicate (m - h.1.length + 1) space, b ∈ Config.whiteSpace := fun b hb =>
    List.eq_of_mem_replicate hb ▸ space_mem_whiteSpace
  rw [formatHeader_eq, parseHeaderLine_colon hBefore, trim_stripHyphens_key, trim_append_of_whiteSpace hPadding,
    hKey.trim_eq_self, hValue.trim_eq_self]

end

theorem map_parseHeaderLine_map_formatHeader {hs : List Header} (hKeeps : ∀ h ∈ hs, headerKeeps h) (m : Nat) :
    (hs.map (formatHeader m)).map parseHeaderLine = hs := by
  rw [List.map_map]
  exact (List.map_congr_left fun h hMem => (hKeeps h hMem).parseHeaderLine_formatHeader m).trans (List.map_id hs)

/-- Settles O40: the formatted lines are header lines, each parses to its header, and distinct keys make the mapping of
the headers the headers themselves. -/
theorem sourceRoundTrip : Obligations.SourceRoundTrip := by
  intro hs body hKeeps hDistinct hBody
  have hLf : ∀ l ∈ hs.map (formatHeader (maxKeyLength hs)), Config.lf ∉ l :=
    List.forall_mem_map.2 fun h hMem => (hKeeps h hMem).lf_notMem_formatHeader _
  have hHeader : ∀ l ∈ hs.map (formatHeader (maxKeyLength hs)), [hyphen, hyphen] <+: l :=
    List.forall_mem_map.2 fun h _ => hyphens_prefix_formatHeader _ h
  rw [formatSource_eq_flatMap_map, parseSource_headerLines_body hLf hHeader hBody,
    map_parseHeaderLine_map_formatHeader hKeeps, headerMap_eq_self hDistinct]

/-! ## The commands of the codec: the selector, a failing check and a payload write (R16, R23, R205) -/

theorem accepts_code_of_notMem (t : BitVec 5) (h : t.toNat ∉ [5]) : CodecClass.code.accepts (variant t) = false := by
  revert t; decide

theorem State.selects_code {s : State} {c : Chunk} (hGet : s.ch[s.arg 0]? = some c) (hType : c.typeId = 5#5) :
    s.selects .code c :=
  ⟨hGet, by rw [hType]; rfl⟩

theorem checkPayload_fail {n : Nat} (h : 65535 < n) : checkPayload n = .error (badArgument argDin 0 65535) :=
  checkRange_fail (by simp [h])

theorem attempt_of_error {α : Type} {s : State} {checks : Except CmdError α} {e : CmdError} (h : checks = .error e)
    (effect : α → StepResult) : attempt s checks effect = .next (s.raise e) := by
  rw [h, attempt_error]

/-- A command whose checks yield the selected record's new payload writes it and nothing else. -/
theorem attempt_setData_of_ok {s : State} {c : Chunk} {checks : Except CmdError Bytes} {d : Bytes}
    (hGet : s.ch[s.arg 0]? = some c) (h : checks = .ok d) :
    attempt s checks (fun d => .next (s.setData (s.arg 0) d).complete) =
      .next ((s.storing (s.arg 0) c d).withError 0#8) := by
  rw [h, attempt_ok, State.setData_eq_storing hGet]
  rfl

/-! ## GETSOURCE (R186) -/

section
variable {s : State} {c : Chunk}

theorem exec_getSource_error {e : CmdError} (h : s.select .code = .error e) : exec .getSource s = .next (s.raise e) :=
  attempt_of_error h _

/-- The state GETSOURCE leaves for headers and a body: both in `DOUT`, three lengths in `R[0..2]`. -/
def State.sourced (s : State) (hs : List Header) (body : Bytes) : State :=
  { s.setDout (encodeHeaders hs ++ body) with
    r := #v[BitVec.ofNat 32 hs.length, BitVec.ofNat 32 (encodeHeaders hs).length, BitVec.ofNat 32 body.length,
      s.r[3]] }.withError 0#8

theorem exec_getSource_ok (hSel : s.selects .code c) :
    exec .getSource s = .next (s.sourced (parseSource c.data).1 (parseSource c.data).2) := by
  change execGetSource s = _
  rw [execGetSource, State.select_ok.2 hSel, attempt_ok, State.sourced, ← vector_set_zero_one_two]
  rfl

/-- `DOUT` reads the header list and the body where they fit its length register, as those of a payload do (R23). -/
theorem State.dout_sourced_parseSource (hFits : c.data.length ≤ 65535) :
    (s.sourced (parseSource c.data).1 (parseSource c.data).2).dout =
      encodeHeaders (parseSource c.data).1 ++ (parseSource c.data).2 :=
  s.dout_setDout (by have := length_parseSource_le c.data; omega)

end

/-- Settles O37: the selector's failing forms, and `State.sourced` of the parsed payload. -/
theorem getSourceReturnsHeadersAndBody : Obligations.GetSourceReturnsHeadersAndBody := by
  refine ⟨rfl, fun s => ⟨failsSelect_of_raises (cls := .code) accepts_code_of_notMem fun _ => exec_getSource_error,
    fun c hs body hGet hType hFits hParse => ?_⟩⟩
  obtain ⟨rfl, rfl⟩ := Prod.ext_iff.1 hParse
  refine ⟨_, exec_getSource_ok (State.selects_code hGet hType), State.dout_sourced_parseSource hFits, ?_⟩
  rw [← List.length_append]
  rfl

/-! ## SETBODY (R188) -/

section
variable {s : State} {c : Chunk}

theorem State.setBodyOperands_badSelector {e : CmdError} (h : s.select .code = .error e) :
    s.setBodyOperands = .error e := by
  rw [State.setBodyOperands, h]; rfl

theorem State.setBodyOperands_tooLong (hSel : s.selects .code c)
    (hLong : 65535 < (formatSource (parseSource c.data).1 s.din).length) :
    s.setBodyOperands = .error (badArgument argDin 0 65535) := by
  simp only [State.setBodyOperands, State.select_ok.2 hSel, checkPayload_fail hLong, bind, Except.bind]

theorem exec_setBody_error {e : CmdError} (h : s.setBodyOperands = .error e) :
    exec .setBody s = .next (s.raise e) :=
  attempt_of_error h _

theorem exec_setBody_ok {d : Bytes} (hGet : s.ch[s.arg 0]? = some c) (h : s.setBodyOperands = .ok d) :
    exec .setBody s = .next ((s.storing (s.arg 0) c d).withError 0#8) :=
  attempt_setData_of_ok hGet h

end

/-- Settles O38: the failing forms are `State.setBodyOperands`'s; the write is of the text it yields. -/
theorem setBodyReplacesTheBody : Obligations.SetBodyReplacesTheBody := by
  refine ⟨rfl, fun s => ⟨failsSelect_of_raises (cls := .code) accepts_code_of_notMem fun _ he =>
    exec_setBody_error (State.setBodyOperands_badSelector he), fun c hs old hGet hType hParse => ?_⟩⟩
  obtain ⟨rfl, rfl⟩ := Prod.ext_iff.1 hParse
  have hSel := State.selects_code hGet hType
  exact ⟨fun hLong => exec_setBody_error (State.setBodyOperands_tooLong hSel hLong),
    fun hLen => exec_setBody_ok hGet (State.setBodyOperands_ok.2 ⟨c, hSel, rfl, hLen⟩)⟩

/-! ## SETHEADERS (R189, R190) -/

section
variable {s : State} {c : Chunk} {hs : List Header}

/-- The mapping read from a well-formed list in `DIN` (R189). -/
theorem State.dinHeaders_of_encodeHeaders (hFits : ∀ h ∈ hs, headerFits h) (hDin : encodeHeaders hs = s.din) :
    s.dinHeaders = .ok (headerMap hs) :=
  State.dinHeaders_ok.2 ⟨hs, (decodeHeaders_eq_some_iff (Nat.le_refl _)).2 ⟨hDin, hFits⟩, rfl⟩

/-- Bytes that are no header list's wire format are refused with the range 0..`DINLEN` (R93, R189). -/
theorem State.dinHeaders_malformed (h : ¬∃ hs, (∀ h ∈ hs, headerFits h) ∧ encodeHeaders hs = s.din) :
    s.dinHeaders = .error (badArgument argDin 0 s.dinLen.toNat) := by
  have hNone : decodeHeaders s.din.length s.din = none := Option.eq_none_iff_forall_ne_some.2 fun hs hDecode =>
    h ⟨hs, ((decodeHeaders_eq_some_iff (Nat.le_refl _)).1 hDecode).symm⟩
  simp only [State.dinHeaders, hNone, badArgument, BitVec.ofNat_toNat, BitVec.setWidth_eq]

theorem State.setHeadersOperands_badSelector {e : CmdError} (h : s.select .code = .error e) :
    s.setHeadersOperands = .error e := by
  rw [State.setHeadersOperands, h]; rfl

theorem State.setHeadersOperands_badList (hSel : s.selects .code c) {e : CmdError} (hList : s.dinHeaders = .error e) :
    s.setHeadersOperands = .error e := by
  rw [State.setHeadersOperands, State.select_ok.2 hSel, hList]; rfl

theorem State.setHeadersOperands_tooLong (hSel : s.selects .code c) (hList : s.dinHeaders = .ok hs)
    (hLong : 65535 < (formatSource hs (parseSource c.data).2).length) :
    s.setHeadersOperands = .error (badArgument argDin 0 65535) := by
  simp only [State.setHeadersOperands, State.select_ok.2 hSel, hList, checkPayload_fail hLong, bind, Except.bind]

theorem exec_setHeaders_error {e : CmdError} (h : s.setHeadersOperands = .error e) :
    exec .setHeaders s = .next (s.raise e) :=
  attempt_of_error h _

theorem exec_setHeaders_ok {d : Bytes} (hGet : s.ch[s.arg 0]? = some c) (h : s.setHeadersOperands = .ok d) :
    exec .setHeaders s = .next ((s.storing (s.arg 0) c d).withError 0#8) :=
  attempt_setData_of_ok hGet h

end

/-- Settles O39: the failing forms are `State.setHeadersOperands`'s; the write is of the text it yields. -/
theorem setHeadersReplacesTheHeaders : Obligations.SetHeadersReplacesTheHeaders := by
  refine ⟨rfl, fun s => ⟨failsSelect_of_raises (cls := .code) accepts_code_of_notMem fun _ he =>
    exec_setHeaders_error (State.setHeadersOperands_badSelector he), fun c old body hGet hType hParse => ?_⟩⟩
  obtain ⟨rfl, rfl⟩ := Prod.ext_iff.1 hParse
  have hSel := State.selects_code hGet hType
  refine ⟨fun hMalformed =>
      exec_setHeaders_error (State.setHeadersOperands_badList hSel (State.dinHeaders_malformed hMalformed)),
    fun hs hFits hDin => ?_⟩
  have hList := State.dinHeaders_of_encodeHeaders hFits hDin
  exact ⟨fun hLong => exec_setHeaders_error (State.setHeadersOperands_tooLong hSel hList hLong),
    fun hLen => exec_setHeaders_ok hGet (State.setHeadersOperands_ok.2 ⟨c, _, hSel, hList, rfl, hLen⟩)⟩

end Sys2Proof.Machine

/-! PROOFS. The cartridge container of 47_cartridge.md: LOOKUP, HASTYPE, CREATE, RDCHUNK and WRDATA (R200 to R208), and
IMPORT (R209 to R213), whose payload is `overwrite`: the front of one sequence over another. -/

namespace Sys2Proof.Machine

/-! ## LOOKUP and HASTYPE (R200 to R202) -/

theorem State.typeOperand_fail {s : State} (h : 31 < s.arg 0) :
    s.typeOperand = .error (badArgument 0x00#8 0 31) := by
  simp only [State.typeOperand, checkRange_zero, if_pos h, bind, Except.bind]

theorem pairwise_lt_indicesOfType (t : Nat) (cs : List Chunk) : (indicesOfType t cs).Pairwise (· < ·) := by
  have hSub : (indicesOfType t cs).Sublist (cs.zipIdx.map (·.2)) := List.filter_sublist.map _
  rw [List.zipIdx_map_snd] at hSub
  exact (List.pairwise_lt_range' 1).sublist hSub

theorem any_typeId_iff {t : Nat} {cs : List Chunk} :
    (cs.any fun c => c.typeId.toNat == t) = true ↔ ∃ (k : Nat) (c : Chunk), cs[k]? = some c ∧ c.typeId.toNat = t := by
  simp only [List.any_eq_true, beq_iff_eq, List.mem_iff_getElem?]
  exact ⟨fun ⟨c, ⟨k, hGet⟩, hType⟩ => ⟨k, c, hGet, hType⟩, fun ⟨k, c, hGet, hType⟩ => ⟨c, ⟨k, hGet⟩, hType⟩⟩

section
variable {s : State}

theorem exec_lookup_badType (h : 31 < s.arg 0) : exec .lookup s = .next (s.withInvalid 0x00#8 0 31) :=
  attempt_of_error (State.typeOperand_fail h) _

theorem exec_hasType_badType (h : 31 < s.arg 0) : exec .hasType s = .next (s.withInvalid 0x00#8 0 31) :=
  attempt_of_error (State.typeOperand_fail h) _

/-- The state LOOKUP leaves for a list of indices: the list in `DOUT`, its length in `R[0]`. -/
def State.listed (s : State) (ks : List Nat) : State :=
  ((s.setDout (encodeIndices ks)).setR 0 (BitVec.ofNat 32 ks.length)).withError 0#8

theorem exec_lookup_legal (hType : s.arg 0 ≤ 31)
    (hFits : (encodeIndices (indicesOfType (s.arg 0) s.ch)).length < 2 ^ 32) :
    exec .lookup s = .next (s.listed (indicesOfType (s.arg 0) s.ch)) := by
  change execLookup s = _
  rw [execLookup, State.typeOperand_ok.2 ⟨rfl, hType⟩, attempt_ok]
  exact if_pos hFits

theorem exec_hasType_legal (hType : s.arg 0 ≤ 31) :
    exec .hasType s = .next ((s.setR 0
      (if s.ch.any fun c => c.typeId.toNat == s.arg 0 then 1#32 else 0#32)).withError 0#8) := by
  change execHasType s = _
  rw [execHasType, State.typeOperand_ok.2 ⟨rfl, hType⟩, attempt_ok]
  rfl

end

/-- Settles O41: the list is `indicesOfType`. -/
theorem lookupListsEveryRecordOfTheType : Obligations.LookupListsEveryRecordOfTheType := by
  refine ⟨rfl, fun s => ⟨exec_lookup_badType, fun hType hFits => ?_⟩⟩
  have hLen : (encodeIndices (indicesOfType (s.arg 0) s.ch)).length < 2 ^ 32 := by
    rwa [length_encodeIndices, length_indicesOfType]
  refine ⟨_, _, exec_lookup_legal hType hLen, pairwise_lt_indicesOfType _ _, fun _ => mem_indicesOfType,
    s.dout_setDout hLen, ?_⟩
  rw [← length_encodeIndices]
  rfl

/-- Settles O42: the answer is `any_typeId_iff`. -/
theorem hasTypeTellsWhetherARecordHasIt : Obligations.HasTypeTellsWhetherARecordHasIt := by
  refine ⟨rfl, fun s => ⟨exec_hasType_badType, fun hType hSome => ?_, fun hType hNone => ?_⟩⟩
  · rw [exec_hasType_legal hType, if_pos (any_typeId_iff.2 hSome)]
    rfl
  · rw [exec_hasType_legal hType, if_neg (mt any_typeId_iff.1 hNone)]
    rfl

/-! ## CREATE (R203, R204) -/

section
variable {s : State}

theorem State.createOperands_unregistered (hType : registered (s.arg 0) = false) :
    s.createOperands = .error .unknownChunkType := by
  simp [State.createOperands, hType]

/-- CREATE's checks on a registered type, the first one that fails first (R204). -/
theorem State.createOperands_of_registered (hType : registered (s.arg 0) = true) :
    s.createOperands =
      if 7 < s.arg 1 then .error (badArgument 0x01#8 0 7)
      else if 65535 < s.dinLen.toNat then .error (badArgument argDin 0 65535)
      else .ok ⟨BitVec.ofNat 5 (s.arg 0), BitVec.ofNat 3 (s.arg 1), s.din⟩ := by
  simp only [State.createOperands, hType, if_true, checkPayload, checkRange_zero, ite_error_bind]
  rfl

theorem exec_create_error {e : CmdError} (h : s.createOperands = .error e) : exec .create s = .next (s.raise e) :=
  attempt_of_error h _

/-- The state CREATE leaves: one record more, its index in `R[0]`. -/
def State.created (s : State) (c : Chunk) : State :=
  { s with ch := s.ch ++ [c], r := s.r.set 0 (BitVec.ofNat 32 s.ch.length) }.withError 0#8

theorem exec_create_ok {c : Chunk} (h : s.createOperands = .ok c) (hCap : s.ch.length < s.params.maxChunks.toNat) :
    exec .create s = .next (s.created c) := by
  change execCreate s = _
  rw [execCreate, h, attempt_ok]
  exact if_pos hCap

theorem registered_le {n : Nat} (h : registered n = true) : n ≤ 19 := by
  have := (registered_iff n).1 h
  omega

end

/-- Settles O43: each failing form is a branch of `State.createOperands_of_registered`; a registered type and a legal
bank fit their fields. -/
theorem createAppendsARecord : Obligations.CreateAppendsARecord := by
  refine ⟨rfl, fun s => ⟨fun hType => exec_create_error (State.createOperands_unregistered hType), fun hType => ?_⟩⟩
  have hChecks := State.createOperands_of_registered hType
  refine ⟨fun hBank => ?badBank, fun hBank hLong => ?tooLong, fun hBank hLen hCap => ?legal⟩
  case badBank => exact exec_create_error (hChecks.trans (if_pos hBank))
  case tooLong => exact exec_create_error (by rw [hChecks, if_neg (by omega), if_pos hLong])
  case legal =>
    have hOk := State.createOperands_ok.2 ⟨hType, hBank, hLen, rfl⟩
    have hLe := registered_le hType
    exact ⟨_, exec_create_ok hOk hCap, Nat.mod_eq_of_lt (by omega), Nat.mod_eq_of_lt (by omega), rfl⟩

/-! ## RDCHUNK and WRDATA (R206 to R208) -/

theorem State.selectAny_none {s : State} (h : s.ch[s.arg 0]? = none) :
    s.selectAny = .error (badArgument 0x00#8 0 (max s.ch.length 1 - 1)) := by
  simp only [State.selectAny, h]

section
variable {s : State} {c : Chunk}

theorem exec_rdChunk_error {e : CmdError} (h : s.selectAny = .error e) : exec .rdChunk s = .next (s.raise e) :=
  attempt_of_error h _

/-- The state RDCHUNK leaves for a record: its payload in `DOUT`, its fields in `R[0..2]`. -/
def State.readOut (s : State) (c : Chunk) : State :=
  { s.setDout c.data with
    r := #v[BitVec.ofNat 32 c.typeId.toNat, BitVec.ofNat 32 c.bank.toNat, BitVec.ofNat 32 c.data.length,
      s.r[3]] }.withError 0#8

theorem exec_rdChunk_ok (hGet : s.ch[s.arg 0]? = some c) : exec .rdChunk s = .next (s.readOut c) := by
  change execRdChunk s = _
  rw [execRdChunk, State.selectAny_ok.2 hGet, attempt_ok, State.readOut, ← vector_set_zero_one_two]
  simp only [BitVec.ofNat_toNat]
  rfl

theorem State.wrDataOperands_badSelector {e : CmdError} (h : s.selectAny = .error e) :
    s.wrDataOperands = .error e := by
  rw [State.wrDataOperands, h]; rfl

theorem State.wrDataOperands_tooLong (hGet : s.ch[s.arg 0]? = some c) (hLong : 65535 < s.dinLen.toNat) :
    s.wrDataOperands = .error (badArgument argDin 0 65535) := by
  simp only [State.wrDataOperands, State.selectAny_ok.2 hGet, checkPayload_fail hLong, bind, Except.bind]

theorem exec_wrData_error {e : CmdError} (h : s.wrDataOperands = .error e) : exec .wrData s = .next (s.raise e) :=
  attempt_of_error h _

theorem exec_wrData_ok (hGet : s.ch[s.arg 0]? = some c) (hLen : s.dinLen.toNat ≤ 65535) :
    exec .wrData s = .next ((s.storing (s.arg 0) c s.din).withError 0#8) := by
  change execWrData s = _
  rw [execWrData, State.wrDataOperands_ok.2 ⟨hGet, hLen⟩, attempt_ok, State.setData_eq_storing hGet]
  rfl

end

/-- Settles O44: `State.readOut` of the record the selector finds. -/
theorem rdChunkReadsARecord : Obligations.RdChunkReadsARecord :=
  ⟨rfl, fun s => ⟨fun hLen => exec_rdChunk_error (State.selectAny_none (List.getElem?_eq_none hLen)),
    fun _ hGet hFits => ⟨_, exec_rdChunk_ok hGet, s.dout_setDout (by omega), rfl⟩⟩⟩

/-- Settles O45: the two checks in order, then the payload write. -/
theorem wrDataReplacesAPayload : Obligations.WrDataReplacesAPayload :=
  ⟨rfl, fun _ => ⟨fun hLen => exec_wrData_error
      (State.wrDataOperands_badSelector (State.selectAny_none (List.getElem?_eq_none hLen))),
    fun _ hGet => ⟨fun hLong => exec_wrData_error (State.wrDataOperands_tooLong hGet hLong), exec_wrData_ok hGet⟩⟩⟩

/-! ## The front of one sequence over another (R210) -/

/-- The first `n` bytes of `src` over the first `n` bytes of `d`. -/
def overwrite (src d : Bytes) (n : Nat) : Bytes := src.take n ++ d.drop n

@[simp] theorem overwrite_zero (src d : Bytes) : overwrite src d 0 = d := rfl

theorem overwrite_of_length_eq {src d : Bytes} {n : Nat} (h : src.length = n) :
    overwrite src d n = src ++ d.drop n := by
  rw [overwrite, List.take_of_length_le h.le]

theorem length_overwrite {src d : Bytes} {n : Nat} (hSrc : n ≤ src.length) (hd : n ≤ d.length) :
    (overwrite src d n).length = d.length := by
  simp only [overwrite, List.length_append, List.length_take, List.length_drop]
  omega

theorem byteAt_overwrite {src : Bytes} {n : Nat} (hSrc : n ≤ src.length) (d : Bytes) (a : Nat) :
    byteAt (overwrite src d n) a = if a < n then byteAt src a else byteAt d a := by
  have hLen : (src.take n).length = n := by simpa using hSrc
  simp only [byteAt, overwrite, List.getD_eq_getElem?_getD]
  split
  next ha => rw [List.getElem?_append_left (by omega), List.getElem?_take_of_lt ha]
  next ha => rw [List.getElem?_append_right (by omega), hLen, List.getElem?_drop, Nat.add_sub_cancel' (by omega)]

/-- Sequences of one length that read alike at every address are the same. -/
theorem eq_of_byteAt_eq {d d' : Bytes} (hLen : d.length = d'.length) (h : ∀ a, byteAt d a = byteAt d' a) : d = d' :=
  List.ext_getElem hLen fun a ha ha' => by rw [← byteAt_eq_getElem ha, ← byteAt_eq_getElem ha', h a]

/-! ## IMPORT (R209 to R212) -/

section
variable {s : State} {c : Chunk} {j : Nat}

theorem State.importOperands_badCount (hLen : s.dinLen ≠ 48#32) : s.importOperands = .error .paletteSizeMismatch :=
  if_pos fun h => hLen (BitVec.eq_of_toNat_eq h)

theorem State.importOperands_underSized (hLen : s.dinLen = 48#32) (hFirst : firstPalette s.ch = some (j, c))
    (hSize : c.data.length < 48) : s.importOperands = .error .underSizedPalettePayload := by
  simp only [State.importOperands, hLen, hFirst, checkPaletteSize_fail hSize, bind, Except.bind]
  rfl

theorem exec_importColors_error {e : CmdError} (h : s.importOperands = .error e) :
    exec .importColors s = .next (s.raise e) :=
  attempt_of_error h _

/-- The state IMPORT leaves where record `j`, which is `c`, is the first palette (R210, R212). -/
def State.imported (s : State) (j : Nat) (c : Chunk) : State :=
  ({ s with r := (s.r.set 0 (BitVec.ofNat 32 j)).set 1 0#32 }.storing j c (s.din ++ c.data.drop 48)).withError 0#8

theorem exec_importColors_into (hLen : s.dinLen = 48#32) (hFirst : firstPalette s.ch = some (j, c))
    (hSize : 48 ≤ c.data.length) : exec .importColors s = .next (s.imported j c) := by
  have hChecks : s.importOperands = .ok (some (j, c)) :=
    State.importOperands_ok.2 ⟨by rw [hLen]; rfl, hFirst.symm, by rintro _ _ ⟨⟩; exact hSize⟩
  change execImportColors s = _
  rw [execImportColors, hChecks, attempt_ok]
  simp only [State.setData_eq_storing (firstPalette_some.1 hFirst).1]
  rfl

theorem exec_importColors_append (hLen : s.dinLen = 48#32) (hNone : firstPalette s.ch = none) :
    exec .importColors s = s.appendRecord "IMPORT" ⟨12#5, 0#3, s.din⟩ (·.setR 1 1#32) := by
  have hChecks : s.importOperands = .ok none := State.importOperands_ok.2 ⟨by rw [hLen]; rfl, hNone.symm, nofun⟩
  change execImportColors s = _
  rw [execImportColors, hChecks, attempt_ok]

/-- The state IMPORT leaves where no record has type 12 (R210, R212). -/
def State.importedNew (s : State) : State :=
  { s with
    ch := s.ch ++ [Chunk.mk 12#5 0#3 s.din]
    r := (s.r.set 0 (BitVec.ofNat 32 s.ch.length)).set 1 1#32 }.withError 0#8

theorem exec_importColors_new (hLen : s.dinLen = 48#32) (hNone : firstPalette s.ch = none)
    (hCap : s.ch.length < s.params.maxChunks.toNat) : exec .importColors s = .next s.importedNew :=
  (exec_importColors_append hLen hNone).trans (if_pos hCap)

end

/-- Settles O46: the two checks in order, then the first palette or a new record. -/
theorem importWritesTheFirstPalette : Obligations.ImportWritesTheFirstPalette := by
  refine ⟨rfl, fun s => ⟨fun hLen => exec_importColors_error (State.importOperands_badCount hLen), fun hLen =>
    ⟨fun j c hGet hType hBefore => ?_, fun hNone => exec_importColors_new hLen (firstPalette_none.2 hNone)⟩⟩⟩
  have hFirst := firstPalette_some.2 ⟨hGet, hType, fun k hk e => hBefore k e hk⟩
  exact ⟨fun hSize => exec_importColors_error (State.importOperands_underSized hLen hFirst hSize),
    exec_importColors_into hLen hFirst⟩

/-! ## IMPORT as sixteen SETCOLORs (R211) -/

/-- The operands of `SETCOLOR j, i, 0x7, r_i, g_i, b_i` placed, the colour from `DIN` (R211). -/
def State.placeColor (u : State) (j i : Nat) : State :=
  { u with
    a := #v[BitVec.ofNat 32 j, BitVec.ofNat 32 i, 7#32, (byteAt u.din (3 * i)).setWidth 32,
      (byteAt u.din (3 * i + 1)).setWidth 32, (byteAt u.din (3 * i + 2)).setWidth 32] }

theorem sixteenSetColors_eq (s : State) (j : Nat) :
    sixteenSetColors s j = (List.range 16).foldl (fun u i => nextOr u (exec .setColor (u.placeColor j i))) s := rfl

/-- The state after the first `n` of the sixteen commands: `n` colours written over record `j`, which was `c`. -/
structure ColorsPlaced (s : State) (j : Nat) (c : Chunk) (n : Nat) (u : State) : Prop where
  ch : u.ch = s.ch.set j (c.withData (overwrite s.din c.data (3 * n)))
  din : u.din = s.din

section
variable {s u : State} {c : Chunk} {j n : Nat}

theorem State.placeColor_arg (hj : j < 2 ^ 32) (hn : n < 16) :
    (u.placeColor j n).arg 0 = j ∧ (u.placeColor j n).arg 1 = n ∧ (u.placeColor j n).arg 2 = 7 ∧
      (u.placeColor j n).arg 3 = (byteAt u.din (3 * n)).toNat ∧
      (u.placeColor j n).arg 4 = (byteAt u.din (3 * n + 1)).toNat ∧
      (u.placeColor j n).arg 5 = (byteAt u.din (3 * n + 2)).toNat := by
  have hByte : ∀ b : Byte, (b.setWidth 32).toNat = b.toNat := fun b => BitVec.toNat_setWidth_of_le (by decide)
  exact ⟨Nat.mod_eq_of_lt hj, Nat.mod_eq_of_lt (by omega), rfl, hByte _, hByte _, hByte _⟩

theorem State.setColorOperands_placeColor (hj : j < 2 ^ 32) (hn : n < 16) (hGet : u.ch[j]? = some c)
    (hType : c.typeId = 12#5) (hSize : 48 ≤ c.data.length) : (u.placeColor j n).setColorOperands = .ok c := by
  obtain ⟨hSelector, hId, hMask, hRed, hGreen, hBlue⟩ := State.placeColor_arg (u := u) hj hn
  have hByte : ∀ b : Byte, b.toNat ≤ 255 := fun b => Nat.le_of_lt_succ b.isLt
  refine State.setColorOperands_ok.2 ⟨State.selects_palette (by rwa [hSelector]) hType, by omega, hMask.le,
    fun _ => ?_, fun _ => ?_, fun _ => ?_, hSize⟩
  · exact hRed ▸ hByte _
  · exact hGreen ▸ hByte _
  · exact hBlue ▸ hByte _

/-- One more colour painted is three more bytes overwritten. -/
theorem State.paintColor_placeColor {d : Bytes} (hj : j < 2 ^ 32) (hn : n < 16) (hDin : u.din.length = 48)
    (hSize : 48 ≤ d.length) (h : (u.placeColor j n).setColorOperands = .ok (c.withData (overwrite u.din d (3 * n)))) :
    (u.placeColor j n).paintColor (overwrite u.din d (3 * n)) = overwrite u.din d (3 * (n + 1)) := by
  obtain ⟨-, hId, hMask, hRed, hGreen, hBlue⟩ := State.placeColor_arg (u := u) hj hn
  refine eq_of_byteAt_eq ?_ fun a => BitVec.eq_of_toNat_eq ?_
  · rw [State.length_paintColor, length_overwrite (by omega) (by omega), length_overwrite (by omega) (by omega)]
  · have hPaint := State.toNat_byteAt_paintColor h a
    rw [hId, hMask, hRed, hGreen, hBlue, Chunk.withData_data, byteAt_overwrite (by omega)] at hPaint
    rw [hPaint, byteAt_overwrite (by omega)]
    unfold colorByte
    grind

theorem ColorsPlaced.zero (hGet : s.ch[j]? = some c) : ColorsPlaced s j c 0 s where
  ch := by
    obtain ⟨hj, rfl⟩ := List.getElem?_eq_some_iff.1 hGet
    exact (List.set_getElem_self hj).symm
  din := rfl

/-- Each of the sixteen commands writes the next colour. -/
theorem ColorsPlaced.setColor (h : ColorsPlaced s j c n u) (hn : n < 16) (hj : j < 2 ^ 32) (hLen : s.dinLen = 48#32)
    (hGet : s.ch[j]? = some c) (hType : c.typeId = 12#5) (hSize : 48 ≤ c.data.length) :
    ColorsPlaced s j c (n + 1) (nextOr u (exec .setColor (u.placeColor j n))) := by
  have hDin : u.din.length = 48 := by rw [h.din, State.length_din, hLen]; rfl
  have hRecord : u.ch[j]? = some (c.withData (overwrite u.din c.data (3 * n))) := by
    rw [h.ch, h.din]
    exact List.getElem?_set_self (List.getElem?_eq_some_iff.1 hGet).1
  have hOk := State.setColorOperands_placeColor hj hn hRecord hType
    (by rwa [Chunk.withData_data, length_overwrite (by omega) (by omega)])
  have hPaint := State.paintColor_placeColor hj hn hDin hSize hOk
  rw [exec_setColor_ok hOk]
  refine ⟨?_, h.din⟩
  change u.ch.set ((u.placeColor j n).arg 0) (c.withData ((u.placeColor j n).paintColor _)) = _
  rw [(State.placeColor_arg hj hn).1, Chunk.withData_data, hPaint, h.ch, h.din, List.set_set]

end

/-- Settles O48: after the sixteenth command all 48 bytes of `DIN` stand over the payload. -/
theorem importIsSixteenSetColors : Obligations.ImportIsSixteenSetColors := by
  intro s j c hStore hLen hGet hType hBefore hSize
  have hj : j < s.ch.length := (List.getElem?_eq_some_iff.1 hGet).1
  have hPlaced : ∀ n ≤ 16, ColorsPlaced s j c n
      ((List.range n).foldl (fun u i => nextOr u (exec .setColor (u.placeColor j i))) s) := by
    intro n
    induction n with
    | zero => exact fun _ => .zero hGet
    | succ n ih =>
      intro hn
      rw [List.range_succ, List.foldl_append]
      exact (ih (by omega)).setColor (by omega) (by omega) hLen hGet hType hSize
  refine ⟨_, exec_importColors_into hLen
    (firstPalette_some.2 ⟨hGet, hType, fun k hk e => hBefore k e hk⟩) hSize, ?_⟩
  rw [sixteenSetColors_eq, (hPlaced 16 le_rfl).ch, overwrite_of_length_eq (by rw [State.length_din, hLen]; rfl)]
  rfl

/-! ## The imported colours read back (R213) -/

/-- Where an IMPORT that succeeds put the colours: the record `R[0]` names begins with them, and no other record
changed (R212, R213). -/
structure ImportedAt (s t : State) (c : Chunk) : Prop where
  record : t.ch[t.r[0].toNat]? = some c
  type : c.typeId = 12#5
  size : 48 ≤ c.data.length
  colors : ∀ a < 48, byteAt c.data a = byteAt s.din a
  others : ∀ k, k ≠ t.r[0].toNat → t.ch[k]? = s.ch[k]?

section
variable {s t : State} {c : Chunk} {j : Nat}

theorem toNat_reported {r : Vector Word 4} {v : Word} (h : j < 2 ^ 32) :
    (((r.set 0 (BitVec.ofNat 32 j)).set 1 v)[0]).toNat = j := by
  simpa using h

theorem State.importedAt_imported (hStore : s.ch.length < 2 ^ 32) (hLen : s.dinLen = 48#32)
    (hFirst : firstPalette s.ch = some (j, c)) :
    ImportedAt s (s.imported j c) (c.withData (s.din ++ c.data.drop 48)) := by
  obtain ⟨hGet, hType, -⟩ := firstPalette_some.1 hFirst
  have hj : j < s.ch.length := (List.getElem?_eq_some_iff.1 hGet).1
  have hIndex : (s.imported j c).r[0].toNat = j := toNat_reported (hj.trans hStore)
  have hDin : s.din.length = 48 := by rw [State.length_din, hLen]; rfl
  refine ⟨?_, hType, by simp [hDin], fun a ha => ?_, fun k hk => ?_⟩
  · rw [hIndex]; exact List.getElem?_set_self hj
  · rw [Chunk.withData_data, ← overwrite_of_length_eq hDin, byteAt_overwrite hDin.ge, if_pos ha]
  · exact List.getElem?_set_ne (hIndex ▸ hk).symm

theorem State.importedAt_importedNew (hStore : s.ch.length < 2 ^ 32) (hLen : s.dinLen = 48#32) :
    ImportedAt s s.importedNew ⟨12#5, 0#3, s.din⟩ := by
  have hIndex : s.importedNew.r[0].toNat = s.ch.length := toNat_reported hStore
  have hDin : s.din.length = 48 := by rw [State.length_din, hLen]; rfl
  refine ⟨by rw [hIndex]; exact List.getElem?_concat_length, rfl, hDin.ge, fun _ _ => rfl, fun k hk => ?_⟩
  rw [hIndex] at hk
  change (s.ch ++ [_])[k]? = _
  obtain hk | hk := Nat.lt_or_gt_of_ne hk
  · exact List.getElem?_append_left hk
  · rw [List.getElem?_eq_none hk.le, List.getElem?_eq_none (by simpa using hk)]

/-- An IMPORT that succeeds has put the colours somewhere. -/
theorem exists_importedAt (hStore : s.ch.length < 2 ^ 32) (h : exec .importColors s = .next t) (hErr : t.err = 0#8) :
    ∃ c, ImportedAt s t c := by
  by_cases hLen : s.dinLen = 48#32
  swap
  · cases (exec_importColors_error (State.importOperands_badCount hLen)).symm.trans h
    cases hErr
  cases hFirst : firstPalette s.ch with
  | none =>
    rw [exec_importColors_append hLen hFirst] at h
    obtain ⟨-, hNext⟩ | ⟨-, hRefused⟩ := s.appendRecord_cases "IMPORT" ⟨12#5, 0#3, s.din⟩ (·.setR 1 1#32)
    · cases hNext.symm.trans h
      exact ⟨_, State.importedAt_importedNew hStore hLen⟩
    · cases hRefused.symm.trans h
  | some p =>
    obtain ⟨j, c⟩ := p
    obtain hSize | hSize := Nat.lt_or_ge c.data.length 48
    · cases (exec_importColors_error (State.importOperands_underSized hLen hFirst hSize)).symm.trans h
      cases hErr
    · cases (exec_importColors_into hLen hFirst hSize).symm.trans h
      exact ⟨_, State.importedAt_imported hStore hLen hFirst⟩

end

/-- Settles O47: GETCOLOR on the record of `ImportedAt`. -/
theorem importedColorsReadBack : Obligations.ImportedColorsReadBack := by
  intro s t hStore hImport hErr
  obtain ⟨c, hRecord, hType, hSize, hColors, hOthers⟩ := exists_importedAt hStore hImport hErr
  refine ⟨fun b hSelector hId => ?_, hOthers⟩
  have hSel : ({ t with a := b } : State).selects .palette c :=
    State.selects_palette ((congrArg (fun v : Word => t.ch[v.toNat]?) hSelector).trans hRecord) hType
  have hRead : ∀ ch ≤ 2, (BitVec.ofNat 32 (byteAt c.data (colorByte b[1].toNat ch)).toNat).toNat =
      (byteAt s.din (3 * b[1].toNat + ch)).toNat := fun ch hCh => by
    rw [hColors _ (by unfold colorByte; omega), BitVec.toNat_ofNat, Nat.mod_eq_of_lt (by omega)]
    rfl
  exact ⟨_, exec_getColor_legal hSel hId hSize, rfl, hRead 0 (by decide), hRead 1 (by decide), hRead 2 le_rfl⟩

end Sys2Proof.Machine

/-! PROOFS. The table of errors of 60_exceptions.md (R230): the codes the checks of each command can raise, and a state
for every mark of the table. -/

namespace Sys2Proof.Machine

/-! ## The codes a check can raise (R222, R230) -/

/-- Every error of a check has one of the given codes. -/
def RaisesOnly {α : Type} (codes : List Byte) (x : Except CmdError α) : Prop := ∀ e, x = .error e → e.code ∈ codes

theorem raisesOnly_ok {α : Type} (codes : List Byte) (a : α) : RaisesOnly codes (.ok a) := nofun

theorem raisesOnly_error {α : Type} {codes : List Byte} {e : CmdError} (h : e.code ∈ codes) :
    RaisesOnly codes (.error e : Except CmdError α) := by
  rintro _ ⟨⟩
  exact h

theorem RaisesOnly.bind {α β : Type} {codes : List Byte} {x : Except CmdError α} {f : α → Except CmdError β}
    (hx : RaisesOnly codes x) (hf : ∀ a, RaisesOnly codes (f a)) : RaisesOnly codes (x >>= f) := by
  cases x with
  | error e => exact raisesOnly_error (hx e rfl)
  | ok a => exact hf a

theorem RaisesOnly.ite {α : Type} {codes : List Byte} {p : Prop} [Decidable p] {x y : Except CmdError α}
    (hx : RaisesOnly codes x) (hy : RaisesOnly codes y) : RaisesOnly codes (if p then x else y) := by
  split
  · exact hx
  · exact hy

section
variable {codes : List Byte} (hInvalid : 1#8 ∈ codes)
include hInvalid

theorem raisesOnly_checkRange (arg : Byte) (v lo hi : Nat) : RaisesOnly codes (checkRange arg v lo hi) :=
  .ite (raisesOnly_error hInvalid) (raisesOnly_ok _ _)

theorem raisesOnly_checkPayload (n : Nat) : RaisesOnly codes (checkPayload n) :=
  raisesOnly_checkRange hInvalid _ _ _ _

theorem raisesOnly_selectAny (s : State) : RaisesOnly codes s.selectAny := by
  unfold State.selectAny
  split
  · exact raisesOnly_error hInvalid
  · exact raisesOnly_ok _ _

theorem raisesOnly_select (s : State) (cls : CodecClass) : RaisesOnly codes (s.select cls) :=
  .bind (raisesOnly_selectAny hInvalid s) fun _ => .ite (raisesOnly_ok _ _) (raisesOnly_error hInvalid)

theorem raisesOnly_spriteNumber (v : Variant) (id : Nat) : RaisesOnly codes (spriteNumber v id) :=
  .ite (.bind (raisesOnly_checkRange hInvalid _ _ _ _) fun _ => raisesOnly_ok _ _)
    (.bind (raisesOnly_checkRange hInvalid _ _ _ _) fun _ => raisesOnly_ok _ _)

theorem raisesOnly_pixelAddr (s : State) : RaisesOnly codes s.pixelAddr :=
  .bind (raisesOnly_select hInvalid s _) fun _ => .bind (raisesOnly_spriteNumber hInvalid _ _) fun _ =>
    .bind (raisesOnly_checkRange hInvalid _ _ _ _) fun _ => .bind (raisesOnly_checkRange hInvalid _ _ _ _) fun _ =>
      raisesOnly_ok _ _

theorem raisesOnly_setPixelOperands (s : State) : RaisesOnly codes s.setPixelOperands :=
  .bind (raisesOnly_pixelAddr hInvalid s) fun _ => .bind (raisesOnly_checkRange hInvalid _ _ _ _) fun _ =>
    raisesOnly_ok _ _

theorem raisesOnly_getTileOperands (s : State) : RaisesOnly codes s.getTileOperands :=
  .bind (raisesOnly_select hInvalid s _) fun _ => .bind (raisesOnly_checkRange hInvalid _ _ _ _) fun _ =>
    .bind (raisesOnly_checkRange hInvalid _ _ _ _) fun _ => raisesOnly_ok _ _

theorem raisesOnly_setTileOperands (s : State) : RaisesOnly codes s.setTileOperands :=
  .bind (raisesOnly_getTileOperands hInvalid s) fun _ => .bind (raisesOnly_checkRange hInvalid _ _ _ _) fun _ =>
    raisesOnly_ok _ _

theorem raisesOnly_getFlagsOperands (s : State) : RaisesOnly codes s.getFlagsOperands :=
  .bind (raisesOnly_select hInvalid s _) fun _ => .bind (raisesOnly_checkRange hInvalid _ _ _ _) fun _ =>
    raisesOnly_ok _ _

theorem raisesOnly_setFlagsOperands (s : State) : RaisesOnly codes s.setFlagsOperands :=
  .bind (raisesOnly_getFlagsOperands hInvalid s) fun _ => .bind (raisesOnly_checkRange hInvalid _ _ _ _) fun _ =>
    raisesOnly_ok _ _

theorem raisesOnly_typeOperand (s : State) : RaisesOnly codes s.typeOperand :=
  .bind (raisesOnly_checkRange hInvalid _ _ _ _) fun _ => raisesOnly_ok _ _

theorem raisesOnly_wrDataOperands (s : State) : RaisesOnly codes s.wrDataOperands :=
  .bind (raisesOnly_selectAny hInvalid s) fun _ => .bind (raisesOnly_checkPayload hInvalid _) fun _ =>
    raisesOnly_ok _ _

theorem raisesOnly_setBodyOperands (s : State) : RaisesOnly codes s.setBodyOperands :=
  .bind (raisesOnly_select hInvalid s _) fun _ => .bind (raisesOnly_checkPayload hInvalid _) fun _ =>
    raisesOnly_ok _ _

theorem raisesOnly_dinHeaders (s : State) : RaisesOnly codes s.dinHeaders := by
  unfold State.dinHeaders
  split
  · exact raisesOnly_error hInvalid
  · exact raisesOnly_ok _ _

theorem raisesOnly_setHeadersOperands (s : State) : RaisesOnly codes s.setHeadersOperands :=
  .bind (raisesOnly_select hInvalid s _) fun _ => .bind (raisesOnly_dinHeaders hInvalid s) fun _ =>
    .bind (raisesOnly_checkPayload hInvalid _) fun _ => raisesOnly_ok _ _

theorem raisesOnly_createOperands (hType : 2#8 ∈ codes) (s : State) : RaisesOnly codes s.createOperands :=
  .ite (.bind (raisesOnly_checkRange hInvalid _ _ _ _) fun _ => .bind (raisesOnly_checkPayload hInvalid _) fun _ =>
    raisesOnly_ok _ _) (raisesOnly_error hType)

end

section
variable {codes : List Byte} (hSize : 5#8 ∈ codes)
include hSize

theorem raisesOnly_checkPaletteSize (d : Bytes) : RaisesOnly codes (checkPaletteSize d) :=
  .ite (raisesOnly_error hSize) (raisesOnly_ok _ _)

theorem raisesOnly_getColorOperands (hInvalid : 1#8 ∈ codes) (s : State) : RaisesOnly codes s.getColorOperands :=
  .bind (raisesOnly_select hInvalid s _) fun _ => .bind (raisesOnly_checkRange hInvalid _ _ _ _) fun _ =>
    .bind (raisesOnly_checkPaletteSize hSize _) fun _ => raisesOnly_ok _ _

theorem raisesOnly_setColorOperands (hInvalid : 1#8 ∈ codes) (s : State) : RaisesOnly codes s.setColorOperands :=
  have hChannel (arg : Byte) (j : Nat) (i : Fin 6) : RaisesOnly codes (s.checkChannel arg j i) :=
    .ite (raisesOnly_checkRange hInvalid _ _ _ _) (raisesOnly_ok _ _)
  .bind (raisesOnly_select hInvalid s _) fun _ => .bind (raisesOnly_checkRange hInvalid _ _ _ _) fun _ =>
    .bind (raisesOnly_checkRange hInvalid _ _ _ _) fun _ => .bind (hChannel _ _ _) fun _ =>
      .bind (hChannel _ _ _) fun _ => .bind (hChannel _ _ _) fun _ =>
        .bind (raisesOnly_checkPaletteSize hSize _) fun _ => raisesOnly_ok _ _

theorem raisesOnly_importOperands (hCount : 4#8 ∈ codes) (s : State) : RaisesOnly codes s.importOperands := by
  refine .ite (raisesOnly_error hCount) ?_
  split
  · exact raisesOnly_ok _ _
  · exact .bind (raisesOnly_checkPaletteSize hSize _) fun _ => raisesOnly_ok _ _

end

/-! ## The codes a command can end with (R230) -/

/-- A step result that is a next state has error code 0 or one of the given codes. -/
def EndsIn (codes : List Byte) (x : StepResult) : Prop := ∀ t, x = .next t → t.err = 0#8 ∨ t.err ∈ codes

theorem EndsIn.of_completes {codes : List Byte} {x : StepResult} (h : Completes x) : EndsIn codes x :=
  fun t ht => .inl (h t ht)

theorem EndsIn.of_attempt {α : Type} {codes : List Byte} {s : State} {checks : Except CmdError α}
    {effect : α → StepResult} (hChecks : RaisesOnly codes checks) (hEffect : ∀ x, Completes (effect x)) :
    EndsIn codes (attempt s checks effect) := by
  cases checks with
  | error e =>
    rintro _ ⟨⟩
    exact .inr (hChecks e rfl)
  | ok x => exact .of_completes (hEffect x)

theorem endsIn_execParse (s : State) : EndsIn [3#8] (execParse s) := by
  intro t h
  refine or_iff_not_imp_left.2 fun hErr => ?_
  obtain ⟨⟨p, rfl⟩, -⟩ := execParse_failure h hErr
  exact List.mem_singleton.2 rfl

/-- No command ends with a code the table does not mark for it. -/
theorem exec_endsIn_raisable {i : Instr} (hPort : i.port = .command) (s : State) : EndsIn (raisable i) (exec i s) := by
  cases i with
  | parse => exact endsIn_execParse s
  | serialize => exact .of_completes (completes_execSerialize s)
  | setPixel => exact .of_attempt (raisesOnly_setPixelOperands (by decide) s) fun _ => completes_next _
  | getPixel => exact .of_attempt (raisesOnly_pixelAddr (by decide) s) fun _ => completes_next _
  | setColor => exact .of_attempt (raisesOnly_setColorOperands (by decide) (by decide) s) fun _ => completes_next _
  | getColor => exact .of_attempt (raisesOnly_getColorOperands (by decide) (by decide) s) fun _ => completes_next _
  | setTile => exact .of_attempt (raisesOnly_setTileOperands (by decide) s) fun _ => completes_next _
  | getTile => exact .of_attempt (raisesOnly_getTileOperands (by decide) s) fun _ => completes_next _
  | setFlags => exact .of_attempt (raisesOnly_setFlagsOperands (by decide) s) fun _ => completes_next _
  | getFlags => exact .of_attempt (raisesOnly_getFlagsOperands (by decide) s) fun _ => completes_next _
  | getSource => exact .of_attempt (raisesOnly_select (by decide) s _) fun _ => completes_next _
  | setBody => exact .of_attempt (raisesOnly_setBodyOperands (by decide) s) fun _ => completes_next _
  | setHeaders => exact .of_attempt (raisesOnly_setHeadersOperands (by decide) s) fun _ => completes_next _
  | hasType => exact .of_attempt (raisesOnly_typeOperand (by decide) s) fun _ => completes_next _
  | rdChunk => exact .of_attempt (raisesOnly_selectAny (by decide) s) fun _ => completes_next _
  | wrData => exact .of_attempt (raisesOnly_wrDataOperands (by decide) s) fun _ => completes_next _
  | create =>
    exact .of_attempt (raisesOnly_createOperands (by decide) (by decide) s) fun c =>
      completes_appendRecord s "CREATE" c id
  | lookup =>
    refine .of_attempt (raisesOnly_typeOperand (by decide) s) fun k => ?_
    split
    · exact completes_next _
    · exact completes_refused _
  | importColors =>
    refine .of_attempt (raisesOnly_importOperands (by decide) (by decide) s) fun target => ?_
    cases target with
    | some _ => exact completes_next _
    | none => exact completes_appendRecord s "IMPORT" _ _
  | _ => cases hPort

/-! ## A state for every mark of the table (R230) -/

/-- Every command with a chunk selector fails alike where there is no such record (R16, R206, R207, R208). -/
theorem exec_selector_noRecord {i : Instr} {s : State} (hi : i ∈ selectorCommands) (h : s.ch[s.arg 0]? = none) :
    exec i s = .next (s.withInvalid 0x00#8 0 (max s.ch.length 1 - 1)) := by
  have hSelect (cls : CodecClass) : s.select cls = .error (badArgument 0x00#8 0 (max s.ch.length 1 - 1)) :=
    State.select_none h
  cases i with
  | setPixel => exact exec_setPixel_error (State.setPixelOperands_error (State.pixelAddr_badSelector (hSelect _)))
  | getPixel => exact exec_getPixel_error (State.pixelAddr_badSelector (hSelect _))
  | setColor => exact exec_setColor_error (State.setColorOperands_badSelector (hSelect _))
  | getColor => exact exec_getColor_error (State.getColorOperands_badSelector (hSelect _))
  | setTile => exact exec_setTile_error (State.setTileOperands_error (State.getTileOperands_badSelector (hSelect _)))
  | getTile => exact exec_getTile_error (State.getTileOperands_badSelector (hSelect _))
  | setFlags =>
    exact exec_setFlags_error (State.setFlagsOperands_error (State.getFlagsOperands_badSelector (hSelect _)))
  | getFlags => exact exec_getFlags_error (State.getFlagsOperands_badSelector (hSelect _))
  | getSource => exact exec_getSource_error (hSelect _)
  | setBody => exact exec_setBody_error (State.setBodyOperands_badSelector (hSelect _))
  | setHeaders => exact exec_setHeaders_error (State.setHeadersOperands_badSelector (hSelect _))
  | rdChunk => exact exec_rdChunk_error (State.selectAny_none h)
  | wrData => exact exec_wrData_error (State.wrDataOperands_badSelector (State.selectAny_none h))
  | _ => simp [selectorCommands] at hi

/-- The reset state with operands in `A[0]` and `A[1]`, a length in `DINLEN` and a store. -/
def State.resetWith (type bank len : Word) (cs : List Chunk) : State :=
  { State.reset with a := #v[type, bank, 0#32, 0#32, 0#32, 0#32], dinLen := len, ch := cs }

/-- A store of one record with the given payload. -/
def oneRecord (type : BitVec 5) (d : Bytes) : State := State.resetWith 0#32 0#32 0#32 [⟨type, 0#3, d⟩]

/-- Every command completes from some state. -/
theorem endsWith_zero {i : Instr} (hPort : i.port = .command) : endsWith i 0#8 := by
  cases i with
  | parse | serialize | lookup | hasType => exact ⟨State.reset, _, rfl, rfl⟩
  | create => exact ⟨State.resetWith 1#32 0#32 0#32 [], _, rfl, rfl⟩
  | importColors => exact ⟨State.resetWith 0#32 0#32 48#32 [], _, rfl, rfl⟩
  | setPixel | getPixel | rdChunk | wrData => exact ⟨oneRecord 1#5 [], _, rfl, rfl⟩
  | setColor | getColor => exact ⟨oneRecord 12#5 (zeros 48), _, rfl, rfl⟩
  | setTile | getTile => exact ⟨oneRecord 4#5 [], _, rfl, rfl⟩
  | setFlags | getFlags => exact ⟨oneRecord 6#5 [], _, rfl, rfl⟩
  | getSource | setBody | setHeaders => exact ⟨oneRecord 5#5 [], _, rfl, rfl⟩
  | _ => cases hPort

theorem endsWith_badSelector {i : Instr} (hi : i ∈ selectorCommands) : endsWith i 1#8 :=
  ⟨State.reset, _, exec_selector_noRecord hi rfl, rfl⟩

/-- Every command ends with every code the table marks for it from some state. -/
theorem endsWith_of_mem_raisable {i : Instr} {code : Byte} (h : code ∈ raisable i) : endsWith i code := by
  cases i with
  | parse =>
    obtain rfl := List.mem_singleton.1 h
    exact ⟨{ State.reset with inLen := 1#32 }, _, rfl, rfl⟩
  | setPixel | getPixel | setTile | getTile | setFlags | getFlags | getSource | setBody | setHeaders | rdChunk
  | wrData =>
    obtain rfl := List.mem_singleton.1 h
    exact endsWith_badSelector (by decide)
  | lookup | hasType =>
    obtain rfl := List.mem_singleton.1 h
    exact ⟨State.resetWith 32#32 0#32 0#32 [], _, rfl, rfl⟩
  | setColor | getColor =>
    obtain rfl | h := List.mem_cons.1 h
    · exact endsWith_badSelector (by decide)
    · obtain rfl := List.mem_singleton.1 h
      exact ⟨oneRecord 12#5 [], _, rfl, rfl⟩
  | create =>
    obtain rfl | h := List.mem_cons.1 h
    · exact ⟨State.resetWith 1#32 8#32 0#32 [], _, rfl, rfl⟩
    · obtain rfl := List.mem_singleton.1 h
      exact ⟨State.reset, _, rfl, rfl⟩
  | importColors =>
    obtain rfl | h := List.mem_cons.1 h
    · exact ⟨State.reset, _, rfl, rfl⟩
    · obtain rfl := List.mem_singleton.1 h
      exact ⟨State.resetWith 0#32 0#32 48#32 [⟨12#5, 0#3, []⟩], _, rfl, rfl⟩
  | _ => cases h

/-- Settles O50: no unmarked code by the checks, every marked one by a state; a reserved opcode by the step. -/
theorem commandErrorTable : Obligations.CommandErrorTable := by
  refine ⟨fun i code hPort => ⟨?_, ?_⟩, fun s t hSeq hReserved hStep => ?_⟩
  · rintro ⟨s, t, hExec, rfl⟩
    exact exec_endsIn_raisable hPort s t hExec
  · rintro (rfl | h)
    · exact endsWith_zero hPort
    · exact endsWith_of_mem_raisable h
  · cases (reservedOpcodeRaises s hSeq hReserved).symm.trans hStep
    rfl

end Sys2Proof.Machine

/-! PROOFS. Reset of 70_reset_and_hazards.md (R250 to R252): the host's reset, the block that waits, and every command on
the reset state. -/

namespace Sys2Proof.Machine

/-- Settles O8: a reset access, and an empty host list. -/
theorem resetIsTotalAndTheBlockWaits : Obligations.ResetIsTotalAndTheBlockWaits :=
  ⟨fun _ _ hSeq hHost => step_idle hSeq hHost, fun s hSeq hHost => by
    simp only [step, hSeq, State.hostStep, hHost]⟩

/-- The reset state after the host has placed operands and `DIN` (R252, R253). -/
def State.resetPlaced (a : Vector Word 6) (d : Mem) (n : Word) : State :=
  { State.reset with a := a, dinBuf := d, dinLen := n }

section
variable {a : Vector Word 6} {d : Mem} {n : Word}

theorem State.resetPlaced_hasRoom :
    (State.resetPlaced a d n).ch.length < (State.resetPlaced a d n).params.maxChunks.toNat :=
  show 0 < 4294967295 by decide

theorem exec_selector_resetPlaced {i : Instr} (hi : i ∈ selectorCommands) :
    exec i (.resetPlaced a d n) = .next ((State.resetPlaced a d n).withInvalid 0x00#8 0 0) :=
  exec_selector_noRecord hi rfl

theorem exec_lookup_resetPlaced (h : a[0].toNat ≤ 31) :
    exec .lookup (.resetPlaced a d n) = .next ((State.resetPlaced a d n).withError 0#8) :=
  exec_lookup_legal h (show 0 < 2 ^ 32 by decide)

theorem exec_hasType_resetPlaced (h : a[0].toNat ≤ 31) :
    exec .hasType (.resetPlaced a d n) = .next ((State.resetPlaced a d n).withError 0#8) :=
  exec_hasType_legal h

theorem exec_serialize_resetPlaced :
    exec .serialize (.resetPlaced a d n) = .next ((State.resetPlaced a d n).withError 0#8) :=
  exec_serialize (s := .resetPlaced a d n) (show 0 < 2 ^ 32 by decide)

theorem exec_parse_resetPlaced :
    exec .parse (.resetPlaced a d n) = .next ((State.resetPlaced a d n).withError 0#8) :=
  emptyStreamGivesTheEmptyStore _ rfl

theorem exec_create_resetPlaced (hType : registered a[0].toNat = true) (hBank : a[1].toNat ≤ 7)
    (hLen : n.toNat ≤ 65535) :
    ∃ c, exec .create (.resetPlaced a d n) = .next ((State.resetPlaced a d n).created c) :=
  ⟨_, exec_create_ok (State.createOperands_ok.2 ⟨hType, hBank, hLen, rfl⟩) State.resetPlaced_hasRoom⟩

theorem exec_importColors_resetPlaced (hLen : n = 48#32) :
    exec .importColors (.resetPlaced a d n) = .next (State.resetPlaced a d n).importedNew :=
  exec_importColors_new hLen rfl State.resetPlaced_hasRoom

end

/-- Settles O9, command by command. -/
theorem everyCommandIsDefinedOnReset : Obligations.EveryCommandIsDefinedOnReset := by
  rintro a d n _ rfl
  refine ⟨fun i => exec_selector_resetPlaced, fun hType =>
    ⟨exec_lookup_resetPlaced hType, exec_hasType_resetPlaced hType⟩, exec_serialize_resetPlaced,
    exec_parse_resetPlaced, fun hType hBank hLen => ?_, fun hLen => ?_⟩
  · obtain ⟨c, hExec⟩ := exec_create_resetPlaced hType hBank hLen
    exact ⟨c, _, hExec, rfl, rfl⟩
  · exact ⟨_, _, exec_importColors_resetPlaced hLen, rfl, rfl⟩

end Sys2Proof.Machine
